-- ==== Sys2Proof/Word.lean ====
section
/-! DEFINITION. The bit widths of RCAR-CORE, each under the name the spec uses for the thing. -/

namespace Sys2Proof

/-- One byte of the record stream (20_memory R32). -/
abbrev Byte := BitVec 8

/-- A register of the register block, the output latch, or an event word (R19, R25, R54). -/
abbrev Word := BitVec 32

/-- The input record `rec[63:0]` (30_encoding R51). -/
abbrev Record := BitVec 64

/-- The command word `cmd[15:0]` (30_encoding R56). -/
abbrev CmdWord := BitVec 16

/-- The pin operand `cmd[7:0]`, unsigned 0 to 255 (30_encoding R58). -/
abbrev Pin := BitVec 8

/-- The index of a register of the block, 0 to 1023 (10_state R19). -/
abbrev RegIdx := Fin 1024

end Sys2Proof
end

