-- ==== Sys2Proof/Config.lean ====
section
/-! DEFINITION. What the hardware fixes (00_scope R6, R7) and what the spec leaves open. An `opaque`
constant has no body: nothing can be proved of its value, so a statement holds whatever it is. -/

namespace Sys2Proof.Config

/-- `CLASS_AXIS`, the axis class code, as the 7 bits `rec[54:48]` (R6, R53). -/
def classAxis : BitVec 7 := 0x02

/-- `CLASS_BUTTON`, the button class code (R6, R53). -/
def classButton : BitVec 7 := 0x01

/-- `RB_BASE`, the physical base of the register block (R6). -/
def rbBase : Nat := 0x3F200000

/-- `RB_LEN`, its length in bytes (R6). -/
def rbLen : Nat := 4096

/-- `PIN_MAX`, the highest valid pin (R6, R87). -/
def pinMax : Nat := 53

/-- `BANK0_MAX`, the highest pin whose mask fits the 32-bit set and clear registers (R7). -/
def bank0Max : Nat := 31

/-- `FSEL_PER_REG`, how many pins one function-select register holds (R6). -/
def fselPerReg : Nat := 10

/-- `FSEL_FIELD_BITS`, the width of a function-select field (R6). -/
def fselFieldBits : Nat := 3

/-- `FSEL_OUTPUT`, the function code "output" (R6, R84). -/
def fselOutput : BitVec 3 := 1

/-- `SET_IDX`, the index of the set register (R6, R85). -/
def setIdx : RegIdx := 7

/-- `CLR_IDX`, the index of the clear register (R6, R85). -/
def clrIdx : RegIdx := 10

/-- `RB_INIT`: what FSEL0 to FSEL5 hold at reset, any words (R7, R29). DESIGN CHOICE, log entry 1:
one unknown word per register. -/
opaque rbInit : Nat → Word

/-- `OUT_INIT`: what the output latch holds at reset, any 32 bits (R7, R29). DESIGN CHOICE, log entry 2. -/
opaque outInit : Word

/-- What the n-th read of the set or clear register returns: an unconstrained value (R24). The block
never makes such a read. DESIGN CHOICE, log entry 9. -/
opaque writeOnlyRead : Nat → Word

/-- The registers of the window the source never names: unconstrained words that never change (R27).
DESIGN CHOICE, log entry 10. -/
opaque unnamedReg : Nat → Word

/-- `UNKNOWN_LINE`: the text the host prints for an Unknown event (R7, R66). DESIGN CHOICE, log entry 17. -/
opaque unknownLine : String

/-- The host's exit code after an internal loop error, unspecified (R109, U2). DESIGN CHOICE, log entry 17. -/
opaque loopErrorExit : Nat

end Sys2Proof.Config
end

