-- ==== Sys2Proof/Syntax.lean ====
section
/-! DEFINITION. The operations of RCAR-CORE, one constructor per row of spec/opcode_table.json, and
the words that spell them on the two ports. -/

namespace Sys2Proof

/-- One row of the opcode table with its operands.

The nine `evt…` rows are format R (30_encoding R51, R53): `ts` is `rec[31:0]`, `value` is `rec[47:32]`,
`ini` is the initialization flag `rec[55]`, `number` is `rec[63:56]`; a row that covers several class
codes carries its class code `cls = rec[54:48]`, which `WellFormed` keeps in the row's range. The six
others are format C (R56, R57); the pin byte that MAPREG ignores is kept as `ignored`, so that an
instruction and its word determine each other (log entry 15). -/
inductive Instr where
  | evtAxis (ts : BitVec 32) (value : BitVec 16) (ini : BitVec 1) (number : BitVec 8)
  | evtButton (ts : BitVec 32) (value : BitVec 16) (ini : BitVec 1) (number : BitVec 8)
  | evtUnknown00 (ts : BitVec 32) (value : BitVec 16) (ini : BitVec 1) (number : BitVec 8)
  | evtUnknown03 (ts : BitVec 32) (value : BitVec 16) (ini : BitVec 1) (number : BitVec 8)
  | evtUnknown04 (ts : BitVec 32) (value : BitVec 16) (cls : BitVec 7) (ini : BitVec 1) (number : BitVec 8)
  | evtUnknown08 (ts : BitVec 32) (value : BitVec 16) (cls : BitVec 7) (ini : BitVec 1) (number : BitVec 8)
  | evtUnknown10 (ts : BitVec 32) (value : BitVec 16) (cls : BitVec 7) (ini : BitVec 1) (number : BitVec 8)
  | evtUnknown20 (ts : BitVec 32) (value : BitVec 16) (cls : BitVec 7) (ini : BitVec 1) (number : BitVec 8)
  | evtUnknown40 (ts : BitVec 32) (value : BitVec 16) (cls : BitVec 7) (ini : BitVec 1) (number : BitVec 8)
  | mappin (pin : Pin)
  | mapreg (ignored : BitVec 8)
  | cfgout (pin : Pin)
  | setpin (pin : Pin)
  | clrpin (pin : Pin)
  | cfgouts (pin : Pin)
deriving DecidableEq, Repr

/-- A word together with the port it arrives on, which alone tells its format (R63). -/
inductive PortWord where
  | record (r : Record)
  | command (c : CmdWord)
deriving DecidableEq, Repr

/-- Whether the row is of format R, taken by ED; the others are commands of RC. -/
def Instr.isRecord : Instr → Bool
  | .evtAxis _ _ _ _ | .evtButton _ _ _ _ | .evtUnknown00 _ _ _ _ | .evtUnknown03 _ _ _ _
  | .evtUnknown04 _ _ _ _ _ | .evtUnknown08 _ _ _ _ _ | .evtUnknown10 _ _ _ _ _
  | .evtUnknown20 _ _ _ _ _ | .evtUnknown40 _ _ _ _ _ => true
  | .mappin _ | .mapreg _ | .cfgout _ | .setpin _ | .clrpin _ | .cfgouts _ => false

end Sys2Proof
end

