-- ==== Sys2Proof/WellFormed.lean ====
section
/-! DEFINITION. The one check an instruction needs: the class code of a row that covers several lies in
that row's range (30_encoding R53). Every other operand fills its field exactly. -/

namespace Sys2Proof

/-- The class codes of the row, as opcode_table.json gives them by mask and match. -/
def Instr.WellFormed : Instr → Bool
  | .evtUnknown04 _ _ cls _ _ => 0x04 ≤ cls && cls ≤ 0x07
  | .evtUnknown08 _ _ cls _ _ => 0x08 ≤ cls && cls ≤ 0x0F
  | .evtUnknown10 _ _ cls _ _ => 0x10 ≤ cls && cls ≤ 0x1F
  | .evtUnknown20 _ _ cls _ _ => 0x20 ≤ cls && cls ≤ 0x3F
  | .evtUnknown40 _ _ cls _ _ => 0x40 ≤ cls
  | .evtAxis _ _ _ _ | .evtButton _ _ _ _ | .evtUnknown00 _ _ _ _ | .evtUnknown03 _ _ _ _ => true
  | .mappin _ | .mapreg _ | .cfgout _ | .setpin _ | .clrpin _ | .cfgouts _ => true

end Sys2Proof
end

