-- ==== Sys2Proof/Decode.lean ====
section
/-! DEFINITION. Decoding a presented word into an instruction, total, refusing by name; then the encoder
and the opcode table, from the same encodings (30_encoding R51 to R59). -/

namespace Sys2Proof

/-- Why a presented word or run of bytes is no instruction. -/
inductive DecodeReject where
  /-- A command word that spells no operation: `cmd[15:11]` not 0, or op 6 or 7 (R59). -/
  | illegalCommand
  /-- Bytes that are not exactly one record of 8 (R32); ED sees nothing of them. -/
  | notAWholeRecord
deriving DecidableEq, Repr

/-! ### Fields (R51, R52, R56, R58) -/

def recTimestamp (r : Record) : BitVec 32 := r.extractLsb' 0 32
def recValue (r : Record) : BitVec 16 := r.extractLsb' 32 16
def recClass (r : Record) : BitVec 7 := r.extractLsb' 48 7
def recInit (r : Record) : BitVec 1 := r.extractLsb' 55 1
def recNumber (r : Record) : BitVec 8 := r.extractLsb' 56 8

def cmdReserved (c : CmdWord) : BitVec 5 := c.extractLsb' 11 5
def cmdOp (c : CmdWord) : BitVec 3 := c.extractLsb' 8 3
def cmdPin (c : CmdWord) : Pin := c.extractLsb' 0 8

/-! ### Decoding -/

/-- The row of the opcode table a record belongs to, by its class code alone (R53); every record has one (R62). -/
def decodeRecord (r : Record) : Instr :=
  let ts := recTimestamp r
  let value := recValue r
  let cls := recClass r
  let ini := recInit r
  let number := recNumber r
  if cls = Config.classAxis then .evtAxis ts value ini number
  else if cls = Config.classButton then .evtButton ts value ini number
  else if cls = 0x00 then .evtUnknown00 ts value ini number
  else if cls = 0x03 then .evtUnknown03 ts value ini number
  else if cls ≤ 0x07 then .evtUnknown04 ts value cls ini number
  else if cls ≤ 0x0F then .evtUnknown08 ts value cls ini number
  else if cls ≤ 0x1F then .evtUnknown10 ts value cls ini number
  else if cls ≤ 0x3F then .evtUnknown20 ts value cls ini number
  else .evtUnknown40 ts value cls ini number

/-- The operation a command word spells (R57), or that it spells none (R59). -/
def decodeCommand (c : CmdWord) : Except DecodeReject Instr :=
  if cmdReserved c ≠ 0 then .error .illegalCommand
  else if cmdOp c = 0 then .ok (.mappin (cmdPin c))
  else if cmdOp c = 1 then .ok (.mapreg (cmdPin c))
  else if cmdOp c = 2 then .ok (.cfgout (cmdPin c))
  else if cmdOp c = 3 then .ok (.setpin (cmdPin c))
  else if cmdOp c = 4 then .ok (.clrpin (cmdPin c))
  else if cmdOp c = 5 then .ok (.cfgouts (cmdPin c))
  else .error .illegalCommand

/-- The instruction a presented word stands for. The port tells the format (R63). -/
def decode : PortWord → Except DecodeReject Instr
  | .record r => .ok (decodeRecord r)
  | .command c => decodeCommand c

/-- The record word of 8 bytes in stream order, `b0` first and least significant (R33, R51). -/
def recordOfBytes : List Byte → Except DecodeReject Record
  | [b0, b1, b2, b3, b4, b5, b6, b7] => .ok (b7 ++ b6 ++ b5 ++ b4 ++ b3 ++ b2 ++ b1 ++ b0)
  | _ => .error .notAWholeRecord

/-- The stream bytes `b0 .. b7` of a record (R51). -/
def bytesOfRecord (r : Record) : List Byte :=
  [r.extractLsb' 0 8, r.extractLsb' 8 8, r.extractLsb' 16 8, r.extractLsb' 24 8,
   r.extractLsb' 32 8, r.extractLsb' 40 8, r.extractLsb' 48 8, r.extractLsb' 56 8]

/-- The instruction that bytes read from the record stream stand for. -/
def decodeBytes (bs : List Byte) : Except DecodeReject Instr :=
  match recordOfBytes bs with
  | .ok r => .ok (decodeRecord r)
  | .error e => .error e

/-- The host's reading of an opcode-table row: a 64-bit row is laid out as its 8 stream bytes, a 16-bit
row is a command word; no other width is a format of this hardware (R63; log entry 19). -/
def decodeTableWord (nbits w : Nat) : Option Instr :=
  if nbits = 64 then (decodeBytes (bytesOfRecord (BitVec.ofNat 64 w))).toOption
  else if nbits = 16 then (decode (.command (BitVec.ofNat 16 w))).toOption
  else none

/-! ### Encoding -/

/-- The record word of five fields (R51). -/
def packRecord (number : BitVec 8) (ini : BitVec 1) (cls : BitVec 7) (value : BitVec 16)
    (ts : BitVec 32) : Record :=
  number ++ ini ++ cls ++ value ++ ts

/-- The command word with operation code `op` and low byte `pin` (R56). -/
def packCommand (op : BitVec 3) (pin : BitVec 8) : CmdWord :=
  (0 : BitVec 5) ++ op ++ pin

/-- The word that spells an instruction, on its port (R51, R53, R56, R57). -/
def encode : Instr → PortWord
  | .evtAxis ts value ini number => .record (packRecord number ini Config.classAxis value ts)
  | .evtButton ts value ini number => .record (packRecord number ini Config.classButton value ts)
  | .evtUnknown00 ts value ini number => .record (packRecord number ini 0x00 value ts)
  | .evtUnknown03 ts value ini number => .record (packRecord number ini 0x03 value ts)
  | .evtUnknown04 ts value cls ini number => .record (packRecord number ini cls value ts)
  | .evtUnknown08 ts value cls ini number => .record (packRecord number ini cls value ts)
  | .evtUnknown10 ts value cls ini number => .record (packRecord number ini cls value ts)
  | .evtUnknown20 ts value cls ini number => .record (packRecord number ini cls value ts)
  | .evtUnknown40 ts value cls ini number => .record (packRecord number ini cls value ts)
  | .mappin pin => .command (packCommand 0 pin)
  | .mapreg ignored => .command (packCommand 1 ignored)
  | .cfgout pin => .command (packCommand 2 pin)
  | .setpin pin => .command (packCommand 3 pin)
  | .clrpin pin => .command (packCommand 4 pin)
  | .cfgouts pin => .command (packCommand 5 pin)

/-! ### The opcode table (opcode_table.json) -/

/-- A row: its mnemonic, the width of its format, and the mask and match of its word. -/
structure OpcodeRow where
  mnemonic : String
  width : Nat
  mask : BitVec 64
  pattern : BitVec 64
deriving DecidableEq, Repr

/-- The width of the format of the port a word arrives on (R63). -/
def portWidth : PortWord → Nat
  | .record _ => 64
  | .command _ => 16

/-- The bits of a presented word, as the table numbers them. -/
def portBits : PortWord → BitVec 64
  | .record r => r
  | .command c => c.setWidth 64

/-- Whether a presented word has the row's width and match under its mask. -/
def rowMatches (w : PortWord) (row : OpcodeRow) : Bool :=
  row.width == portWidth w && portBits w &&& row.mask == row.pattern

/-- The row of an instruction, copied from opcode_table.json. -/
def opcodeRow : Instr → OpcodeRow
  | .evtAxis _ _ _ _ => ⟨"EVT.AXIS", 64, 0x007F000000000000, 0x0002000000000000⟩
  | .evtButton _ _ _ _ => ⟨"EVT.BUTTON", 64, 0x007F000000000000, 0x0001000000000000⟩
  | .evtUnknown00 _ _ _ _ => ⟨"EVT.UNKNOWN_00", 64, 0x007F000000000000, 0x0000000000000000⟩
  | .evtUnknown03 _ _ _ _ => ⟨"EVT.UNKNOWN_03", 64, 0x007F000000000000, 0x0003000000000000⟩
  | .evtUnknown04 _ _ _ _ _ => ⟨"EVT.UNKNOWN_04_07", 64, 0x007C000000000000, 0x0004000000000000⟩
  | .evtUnknown08 _ _ _ _ _ => ⟨"EVT.UNKNOWN_08_0F", 64, 0x0078000000000000, 0x0008000000000000⟩
  | .evtUnknown10 _ _ _ _ _ => ⟨"EVT.UNKNOWN_10_1F", 64, 0x0070000000000000, 0x0010000000000000⟩
  | .evtUnknown20 _ _ _ _ _ => ⟨"EVT.UNKNOWN_20_3F", 64, 0x0060000000000000, 0x0020000000000000⟩
  | .evtUnknown40 _ _ _ _ _ => ⟨"EVT.UNKNOWN_40_7F", 64, 0x0040000000000000, 0x0040000000000000⟩
  | .mappin _ => ⟨"MAPPIN", 16, 0xFF00, 0x0000⟩
  | .mapreg _ => ⟨"MAPREG", 16, 0xFF00, 0x0100⟩
  | .cfgout _ => ⟨"CFGOUT", 16, 0xFF00, 0x0200⟩
  | .setpin _ => ⟨"SETPIN", 16, 0xFF00, 0x0300⟩
  | .clrpin _ => ⟨"CLRPIN", 16, 0xFF00, 0x0400⟩
  | .cfgouts _ => ⟨"CFGOUTS", 16, 0xFF00, 0x0500⟩

/-- All fifteen rows of the table, in its order. -/
def opcodeTable : List OpcodeRow :=
  [opcodeRow (.evtAxis 0 0 0 0), opcodeRow (.evtButton 0 0 0 0), opcodeRow (.evtUnknown00 0 0 0 0),
   opcodeRow (.evtUnknown03 0 0 0 0), opcodeRow (.evtUnknown04 0 0 0 0 0), opcodeRow (.evtUnknown08 0 0 0 0 0),
   opcodeRow (.evtUnknown10 0 0 0 0 0), opcodeRow (.evtUnknown20 0 0 0 0 0), opcodeRow (.evtUnknown40 0 0 0 0 0),
   opcodeRow (.mappin 0), opcodeRow (.mapreg 0), opcodeRow (.cfgout 0), opcodeRow (.setpin 0),
   opcodeRow (.clrpin 0), opcodeRow (.cfgouts 0)]

end Sys2Proof
end

