-- ==== Sys2Proof/Machine/State.lean ====
section
/-! DEFINITION. The state of RCAR-CORE (10_state), what it takes in and gives out, why a step can stop,
and the state after reset. -/

namespace Sys2Proof.Machine

/-- The status RC answers a command with (60_exceptions R113). -/
inductive Status where
  | ok
  | illegalCmd
  | pinRange
  | pinBank
  | notMapped
  | alreadyMapped
  | fatalAcq
deriving DecidableEq, Repr

/-- The tagged variant ED produces (30_encoding R54). -/
inductive DecodedEvent where
  | axis (index : BitVec 8) (value : BitVec 16)
  | button (index : BitVec 8) (value : BitVec 16)
  | unknown
deriving DecidableEq, Repr

/-- The result of MAPPIN (30_encoding R61). -/
structure PinConfig where
  fselIdx : BitVec 3
  fselShift : BitVec 5
  fselCode : BitVec 3
  setIdx : BitVec 4
  clrIdx : BitVec 4
  bitMask : BitVec 64
deriving DecidableEq, Repr

/-- What RC returns for an accepted command: a status, and the PinConfig of an OK MAPPIN (R60). -/
structure Response where
  status : Status
  pinConfig : Option PinConfig
deriving DecidableEq, Repr

/-- One transaction on the register bus, of a whole 32-bit register (20_memory R36, R37). -/
inductive BusEvent where
  | read (i : RegIdx) (data : Word)
  | write (i : RegIdx) (v : Word)
deriving DecidableEq, Repr

/-- The registers the block can reach (20_memory R35): six storage registers and two write-only ones. -/
inductive Reg where
  | fsel (k : Fin 6)
  | set
  | clr
deriving DecidableEq, Repr

/-- What the host presents to the block (10_state R30, 70_reset R136): a record to ED, a command to RC
together with the outcome `acq_ok` the environment gives a MAPREG, or a reset. -/
inductive Input where
  | record (r : Record)
  | command (c : CmdWord) (acqOk : Bool)
  | reset
deriving DecidableEq, Repr

/-- Which of the six command operations is being performed (R57). -/
inductive RcOp where
  | mappin
  | mapreg
  | cfgout
  | setpin
  | clrpin
  | cfgouts
deriving DecidableEq, Repr

/-- Why the machine stops. -/
inductive Fault where
  /-- A command while HALTED = 1: "RC has no step" (60_exceptions R126, U21 `stuck`). Raised by every
  command meaning and by the step when nothing but commands is pending. Safe: no value is produced. -/
  | rcHalted
deriving DecidableEq, Repr

/-- Why an instruction has no meaning here. -/
inductive Refusal where
  /-- Raised by an arm of `exec` for an instruction not yet given its meaning; no arm does. Safe. -/
  | notModelled (mnemonic : String)
deriving DecidableEq, Repr

/-- Everything the spec gives the machine (10_state), with the inputs it has not taken yet and the
histories of what it gave out (70_reset R147). -/
structure State where
  /-- MAPPED (R16). -/
  mapped : Bool
  /-- HALTED (R17). -/
  halted : Bool
  /-- FSEL0 to FSEL5, the registers RB[0] to RB[5] (R20). -/
  fsel : Vector Word 6
  /-- The output latch OUT, one bit a pin, pins 0 to 31 (R25). -/
  out : Word
  /-- The environment input `acq_ok` of the command being performed (R30; log entry 8). -/
  acqOk : Bool
  /-- How many free values reads of SET and CLR have taken (R24; log entry 9). -/
  draws : Nat
  /-- What the host has presented and the block not yet taken, first presented first (log entry 3). -/
  pending : List Input
  /-- Event words ED has given, oldest first (R54). -/
  events : List Word
  /-- Answers RC has given, oldest first (R60). -/
  responses : List Response
  /-- Register-bus transactions, oldest first (R37). -/
  bus : List BusEvent
deriving DecidableEq, Repr

/-- What the machine does next with what is pending. Each carries the state in which it happens. -/
inductive Fetched where
  | idle
  | stuck
  | reset (s : State)
  | instr (i : Instr) (s : State)
  | illegal (s : State)
deriving DecidableEq, Repr

/-- The machine right after reset (R29, R137): nothing mapped, not halted, empty histories, nothing
presented; FSEL0 to FSEL5 and OUT at the open values RB_INIT and OUT_INIT (log entries 1, 2). -/
def State.reset : State where
  mapped := false
  halted := false
  fsel := #v[Config.rbInit 0, Config.rbInit 1, Config.rbInit 2, Config.rbInit 3, Config.rbInit 4,
    Config.rbInit 5]
  out := Config.outInit
  acqOk := false
  draws := 0
  pending := []
  events := []
  responses := []
  bus := []

end Sys2Proof.Machine
end

