-- ==== Sys2Proof/Machine/Operands.lean ====
section
/-! DEFINITION. The operand arithmetic: the pin mapper PM (41_pin_mapper), the values written to the
registers, and the event word (30_encoding R54). -/

namespace Sys2Proof.Machine

/-! ### The pin mapper -/

/-- The index of the pin's function-select register, `p / 10` (R82). -/
def fselIndex (pin : Pin) : Nat := pin.toNat / Config.fselPerReg

/-- The bit position of the pin's field, `(p % 10) * 3` (R83). -/
def fselShift (pin : Pin) : Nat := pin.toNat % Config.fselPerReg * Config.fselFieldBits

/-- The pin's function-select register. The range check (R87) keeps `p / 10` at most 5; beyond it the
index is reduced so that the function is total (log entry 14). -/
def fselReg (pin : Pin) : Reg := .fsel (Fin.ofNat 6 (fselIndex pin))

/-- The function code 1 placed at the pin's shift: `1 << fsel_shift` in 32 bits (R84). -/
def outputCode (pin : Pin) : Word := Config.fselOutput.setWidth 32 <<< fselShift pin

/-- The three bits of the pin's field: `7 << fsel_shift` in 32 bits (R97). -/
def fieldMask (pin : Pin) : Word := 7#32 <<< fselShift pin

/-- The 64-bit mask `1 << p` (R86). -/
def bitMask (pin : Pin) : BitVec 64 := 1#64 <<< pin.toNat

/-- The word SETPIN and CLRPIN write: the low half of the mask (R86). -/
def levelMask (pin : Pin) : Word := (bitMask pin).setWidth 32

/-- The PinConfig bundle of a pin (R61, R81). -/
def pinConfig (pin : Pin) : PinConfig where
  fselIdx := BitVec.ofNat 3 (fselIndex pin)
  fselShift := BitVec.ofNat 5 (fselShift pin)
  fselCode := Config.fselOutput
  setIdx := BitVec.ofNat 4 Config.setIdx.val
  clrIdx := BitVec.ofNat 4 Config.clrIdx.val
  bitMask := bitMask pin

/-! ### The values the configure operations write -/

/-- CFGOUT ORs the code into the word it read and clears nothing (R91, R92). -/
def orOutputCode (pin : Pin) (old : Word) : Word := old ||| outputCode pin

/-- CFGOUTS clears the pin's field in the word it read, then sets the code (R97). -/
def replaceFieldByOutput (pin : Pin) (old : Word) : Word := old &&& ~~~ fieldMask pin ||| outputCode pin

/-! ### Register indexes and addresses -/

/-- The index of a register in the window (20_memory R35). -/
def regIndex : Reg → RegIdx
  | .fsel k => k.castLE (by decide)
  | .set => Config.setIdx
  | .clr => Config.clrIdx

/-- The register the block can reach at an index, if any (R35, R27). -/
def regAt (i : RegIdx) : Option Reg :=
  if h : i.val < 6 then some (.fsel ⟨i.val, h⟩)
  else if i = Config.setIdx then some .set
  else if i = Config.clrIdx then some .clr
  else none

/-- The physical address of register `i`: `RB_BASE + 4*i` (R34). -/
def regAddress (i : RegIdx) : Nat := Config.rbBase + 4 * i.val

/-! ### The event word -/

/-- The 32-bit event word (R54, R55): six zero bits, the tag, the index, the value. -/
def eventWord : DecodedEvent → Word
  | .axis index value => (0b000000 : BitVec 6) ++ (0b10 : BitVec 2) ++ index ++ value
  | .button index value => (0b000000 : BitVec 6) ++ (0b01 : BitVec 2) ++ index ++ value
  | .unknown => 0x00000000

end Sys2Proof.Machine
end

