-- ==== Sys2Proof/Machine/Flags.lean ====
section
/-! DEFINITION. The two flags of RC, MAPPED and HALTED (10_state R16, R17), and the numbers of the status
codes (60_exceptions R113). There are no condition codes: no operation computes a flag (R18). -/

namespace Sys2Proof.Machine

/-- `MAPPED <- 1`, done by a successful MAPREG only (R16, R90). -/
def State.setMapped (s : State) : State := { s with mapped := true }

/-- `HALTED <- 1`, done by a failing MAPREG only (R17, R119). -/
def State.setHalted (s : State) : State := { s with halted := true }

/-- The code `status[2:0]` (R113); 7 is never returned. -/
def statusCode : Status → BitVec 3
  | .ok => 0
  | .illegalCmd => 1
  | .pinRange => 2
  | .pinBank => 3
  | .notMapped => 4
  | .alreadyMapped => 5
  | .fatalAcq => 6

end Sys2Proof.Machine
end

