-- ==== Sys2Proof/Machine/Ops.lean ====
section
/-! DEFINITION. The named operations over the state: the outputs, the register bus, the ways a command
ends, the checks every command goes through, and reset. -/

namespace Sys2Proof.Machine

/-! ### Outputs -/

/-- ED gives one event word (R71). -/
def State.emit (s : State) (e : Word) : State := { s with events := s.events ++ [e] }

/-- RC answers the command with a status and, for an OK MAPPIN, the PinConfig (R60). -/
def State.respond (s : State) (st : Status) (cfg : Option PinConfig) : State :=
  { s with responses := s.responses ++ [⟨st, cfg⟩] }

/-- A transaction is entered in the history (R37). -/
def State.record (s : State) (e : BusEvent) : State := { s with bus := s.bus ++ [e] }

/-! ### The register bus -/

/-- `RB[i]` as one read transaction: a storage register gives the word last written (R28); the write-only
registers give an unconstrained value, fresh at each read (R24; log entry 9). -/
def busRead (r : Reg) (s : State) : Word × State :=
  match r with
  | .fsel k => (s.fsel[k], s.record (.read (regIndex r) s.fsel[k]))
  | .set | .clr =>
    (Config.writeOnlyRead s.draws,
      { s.record (.read (regIndex r) (Config.writeOnlyRead s.draws)) with draws := s.draws + 1 })

/-- What a write of `v` does to the registers and the latch: a storage register takes it (R28), SET raises
the bits of OUT that are 1 in `v` (R22), CLR lowers them (R23). -/
def State.store (s : State) (r : Reg) (v : Word) : State :=
  match r with
  | .fsel k => { s with fsel := s.fsel.set k v }
  | .set => { s with out := s.out ||| v }
  | .clr => { s with out := s.out &&& ~~~ v }

/-- `RB[i] <- v` as one write transaction (R10, R37). -/
def busWrite (r : Reg) (v : Word) (s : State) : State := (s.store r v).record (.write (regIndex r) v)

/-- What a register of the window holds, without a transaction: a view of the state for statements. SET
and CLR show the value their next read would give, the unnamed registers words that never change (R27). -/
def State.peek (s : State) (i : RegIdx) : Word :=
  match regAt i with
  | some (.fsel k) => s.fsel[k]
  | some .set | some .clr => Config.writeOnlyRead s.draws
  | none => Config.unnamedReg i.val

/-! ### How a command ends (00_scope R10, R11; 60_exceptions R124)

Raising a status saves nothing, switches no mode and transfers control nowhere, and there is nothing to
return from (R124, R125): these two operations are the whole of it. -/

/-- `reject <STATUS>`: the status is answered and nothing else changes. -/
def reject (st : Status) (s : State) : Host.Outcome State Fault Refusal := .next (s.respond st none)

/-- `raise FATAL_ACQ`: HALTED is set and the status answered (R119). -/
def raiseFatalAcq (s : State) : Host.Outcome State Fault Refusal :=
  .next (s.setHalted.respond .fatalAcq none)

/-! ### The common front end of RC (42_register_controller R89) -/

/-- The operations that take a pin, `op in {0,2,3,4,5}`. -/
def takesPin : RcOp → Bool
  | .mappin | .cfgout | .setpin | .clrpin | .cfgouts => true
  | .mapreg => false

/-- The operations that use the 32-bit set and clear registers, `op in {3,4}`. -/
def usesBank : RcOp → Bool
  | .setpin | .clrpin => true
  | .mappin | .mapreg | .cfgout | .cfgouts => false

/-- The operations that need the mapping, `op in {2,3,4,5}`. -/
def needsMapping : RcOp → Bool
  | .cfgout | .setpin | .clrpin | .cfgouts => true
  | .mappin | .mapreg => false

/-- The first check that fails, in the order of R89; the reserved-word check comes before decoding. -/
def failedCheck (op : RcOp) (pin : Pin) (s : State) : Option Status :=
  if takesPin op ∧ pin.toNat > Config.pinMax then some .pinRange
  else if usesBank op ∧ pin.toNat > Config.bank0Max then some .pinBank
  else if needsMapping op ∧ s.mapped = false then some .notMapped
  else if op = .mapreg ∧ s.mapped = true then some .alreadyMapped
  else if op = .mapreg ∧ s.acqOk = false then some .fatalAcq
  else none

/-- One command: RC has no step while halted (R126); otherwise the checks, and if none fails the operation
itself, answered OK. -/
def runCommand (op : RcOp) (pin : Pin) (perform : State → State) (cfg : Option PinConfig) (s : State) :
    Host.Outcome State Fault Refusal :=
  if s.halted = true then .fault .rcHalted
  else
    match failedCheck op pin s with
    | some .fatalAcq => raiseFatalAcq s
    | some st => reject st s
    | none => .next ((perform s).respond .ok cfg)

/-! ### Reset (70_reset R136, R137) -/

/-- A reset presented by the host: the flags clear and a new run begins with empty histories; the
peripheral, FSEL0 to FSEL5 and OUT, keeps what it held (R136; log entry 6). -/
def State.restart (s : State) (rest : List Input) : State :=
  { State.reset with fsel := s.fsel, out := s.out, draws := s.draws, pending := rest }

end Sys2Proof.Machine
end

