-- ==== Sys2Proof/Machine/EventDecoder.lean ====
section
/-! DEFINITION. The nine outcomes of ED's one operation DECODE, a row of the opcode table each
(40_event_decoder R71 to R75). None reads the state, fails, or is stopped by HALTED. -/

namespace Sys2Proof.Machine

/-- EVT.AXIS (R73). -/
def execEvtAxis (_ts : BitVec 32) (value : BitVec 16) (_ini : BitVec 1) (number : BitVec 8) (s : State) :
    Host.Outcome State Fault Refusal :=
  .next (s.emit (eventWord (.axis number value)))

/-- EVT.BUTTON (R74). -/
def execEvtButton (_ts : BitVec 32) (value : BitVec 16) (_ini : BitVec 1) (number : BitVec 8) (s : State) :
    Host.Outcome State Fault Refusal :=
  .next (s.emit (eventWord (.button number value)))

/-- EVT.UNKNOWN_00, class 0x00 (R75). -/
def execEvtUnknown00 (_ts : BitVec 32) (_value : BitVec 16) (_ini : BitVec 1) (_number : BitVec 8)
    (s : State) : Host.Outcome State Fault Refusal :=
  .next (s.emit (eventWord .unknown))

/-- EVT.UNKNOWN_03, class 0x03 (R75). -/
def execEvtUnknown03 (_ts : BitVec 32) (_value : BitVec 16) (_ini : BitVec 1) (_number : BitVec 8)
    (s : State) : Host.Outcome State Fault Refusal :=
  .next (s.emit (eventWord .unknown))

/-- EVT.UNKNOWN_04_07, classes 0x04 to 0x07 (R75). -/
def execEvtUnknown04 (_ts : BitVec 32) (_value : BitVec 16) (_cls : BitVec 7) (_ini : BitVec 1)
    (_number : BitVec 8) (s : State) : Host.Outcome State Fault Refusal :=
  .next (s.emit (eventWord .unknown))

/-- EVT.UNKNOWN_08_0F, classes 0x08 to 0x0F (R75). -/
def execEvtUnknown08 (_ts : BitVec 32) (_value : BitVec 16) (_cls : BitVec 7) (_ini : BitVec 1)
    (_number : BitVec 8) (s : State) : Host.Outcome State Fault Refusal :=
  .next (s.emit (eventWord .unknown))

/-- EVT.UNKNOWN_10_1F, classes 0x10 to 0x1F (R75). -/
def execEvtUnknown10 (_ts : BitVec 32) (_value : BitVec 16) (_cls : BitVec 7) (_ini : BitVec 1)
    (_number : BitVec 8) (s : State) : Host.Outcome State Fault Refusal :=
  .next (s.emit (eventWord .unknown))

/-- EVT.UNKNOWN_20_3F, classes 0x20 to 0x3F (R75). -/
def execEvtUnknown20 (_ts : BitVec 32) (_value : BitVec 16) (_cls : BitVec 7) (_ini : BitVec 1)
    (_number : BitVec 8) (s : State) : Host.Outcome State Fault Refusal :=
  .next (s.emit (eventWord .unknown))

/-- EVT.UNKNOWN_40_7F, classes 0x40 to 0x7F (R75). -/
def execEvtUnknown40 (_ts : BitVec 32) (_value : BitVec 16) (_cls : BitVec 7) (_ini : BitVec 1)
    (_number : BitVec 8) (s : State) : Host.Outcome State Fault Refusal :=
  .next (s.emit (eventWord .unknown))

end Sys2Proof.Machine
end

