-- ==== Sys2Proof/Machine/PinMapper.lean ====
section
/-! DEFINITION. MAPPIN, the pin mapper as a command (41_pin_mapper R81). -/

namespace Sys2Proof.Machine

/-- MAPPIN p: the PinConfig of the pin, with no transaction and no need of the mapping (R81). -/
def execMappin (pin : Pin) (s : State) : Host.Outcome State Fault Refusal :=
  runCommand .mappin pin (fun s => s) (some (pinConfig pin)) s

end Sys2Proof.Machine
end

