-- ==== Sys2Proof/Machine/RegisterController.lean ====
section
/-! DEFINITION. The operations of RC on the register block: MAPREG, CFGOUT, SETPIN, CLRPIN and CFGOUTS
(42_register_controller R90 to R97). Each goes through the checks of R89 in `runCommand`. -/

namespace Sys2Proof.Machine

/-- A configure operation: one read of the pin's function-select register, then one write of the word that
`change` makes of it (R91, R97). -/
def readModifyWrite (pin : Pin) (change : Word → Word) (s : State) : State :=
  busWrite (fselReg pin) (change (busRead (fselReg pin) s).1) (busRead (fselReg pin) s).2

/-- MAPREG: MAPPED <- 1; the low byte of the word is ignored (R90, R57). -/
def execMapreg (ignored : BitVec 8) (s : State) : Host.Outcome State Fault Refusal :=
  runCommand .mapreg ignored State.setMapped none s

/-- CFGOUT p: OR the output code into the field (R91). -/
def execCfgout (pin : Pin) (s : State) : Host.Outcome State Fault Refusal :=
  runCommand .cfgout pin (readModifyWrite pin (orOutputCode pin)) none s

/-- SETPIN p: write `1 << p` to the set register (R94). -/
def execSetpin (pin : Pin) (s : State) : Host.Outcome State Fault Refusal :=
  runCommand .setpin pin (busWrite .set (levelMask pin)) none s

/-- CLRPIN p: write `1 << p` to the clear register (R95). -/
def execClrpin (pin : Pin) (s : State) : Host.Outcome State Fault Refusal :=
  runCommand .clrpin pin (busWrite .clr (levelMask pin)) none s

/-- CFGOUTS p: clear the field and set the output code (R97). -/
def execCfgouts (pin : Pin) (s : State) : Host.Outcome State Fault Refusal :=
  runCommand .cfgouts pin (readModifyWrite pin (replaceFieldByOutput pin)) none s

end Sys2Proof.Machine
end

