-- ==== Sys2Proof/Machine/Dispatch.lean ====
section
/-! DEFINITION. One arm per constructor of Instr: the meaning it calls. -/

namespace Sys2Proof.Machine

def exec (i : Instr) (s : State) : Host.Outcome State Fault Refusal :=
  match i with
  | .evtAxis ts value ini number => Sys2Proof.Machine.execEvtAxis ts value ini number s
  | .evtButton ts value ini number => Sys2Proof.Machine.execEvtButton ts value ini number s
  | .evtUnknown00 ts value ini number => Sys2Proof.Machine.execEvtUnknown00 ts value ini number s
  | .evtUnknown03 ts value ini number => Sys2Proof.Machine.execEvtUnknown03 ts value ini number s
  | .evtUnknown04 ts value cls ini number => Sys2Proof.Machine.execEvtUnknown04 ts value cls ini number s
  | .evtUnknown08 ts value cls ini number => Sys2Proof.Machine.execEvtUnknown08 ts value cls ini number s
  | .evtUnknown10 ts value cls ini number => Sys2Proof.Machine.execEvtUnknown10 ts value cls ini number s
  | .evtUnknown20 ts value cls ini number => Sys2Proof.Machine.execEvtUnknown20 ts value cls ini number s
  | .evtUnknown40 ts value cls ini number => Sys2Proof.Machine.execEvtUnknown40 ts value cls ini number s
  | .mappin pin => Sys2Proof.Machine.execMappin pin s
  | .mapreg ignored => Sys2Proof.Machine.execMapreg ignored s
  | .cfgout pin => Sys2Proof.Machine.execCfgout pin s
  | .setpin pin => Sys2Proof.Machine.execSetpin pin s
  | .clrpin pin => Sys2Proof.Machine.execClrpin pin s
  | .cfgouts pin => Sys2Proof.Machine.execCfgouts pin s

end Sys2Proof.Machine
end

