-- ==== Sys2Proof/Machine/Fetch.lean ====
section
/-! DEFINITION. Which presented input the block takes next, and the instruction it spells
(10_state R14, 60_exceptions R126). -/

namespace Sys2Proof.Machine

/-- The first presented input that can be taken, and what stays pending. While RC is halted it accepts no
command (R126): ED goes on with the records behind it, the commands staying unaccepted, and a reset
begins a new run, dropping the commands the halted run never accepted (log entries 5 and 6). -/
def takeNext (halted : Bool) : List Input → Option (Input × List Input)
  | [] => none
  | .record r :: rest => some (.record r, rest)
  | .reset :: rest => some (.reset, rest)
  | .command c ok :: rest =>
    if halted = true then
      match takeNext halted rest with
      | some (.record r, kept) => some (.record r, .command c ok :: kept)
      | other => other
    else some (.command c ok, rest)

/-- The state in which an operation runs: its input is taken off `pending`. -/
def State.taking (s : State) (rest : List Input) : State := { s with pending := rest }

/-- The state in which a command runs: its input is taken, and the environment's `acq_ok` is presented (R30). -/
def State.takingCommand (s : State) (rest : List Input) (acqOk : Bool) : State :=
  { s with pending := rest, acqOk := acqOk }

/-- What happens next: nothing while nothing is presented (R14, R146), or the instruction, reset or
reserved command word that the next input is. -/
def fetch (s : State) : Fetched :=
  match takeNext s.halted s.pending with
  | none => if s.pending = [] then .idle else .stuck
  | some (.reset, rest) => .reset (s.restart rest)
  | some (.record r, rest) => .instr (decodeRecord r) (s.taking rest)
  | some (.command c ok, rest) =>
    match decodeCommand c with
    | .ok i => .instr i (s.takingCommand rest ok)
    | .error _ => .illegal (s.takingCommand rest ok)

/-- The input that presents a table row's word: 64 bits to ED, otherwise a command to RC whose acquisition,
if it is a MAPREG, succeeds (log entries 3 and 8). -/
def inputOfTableWord (nbits w : Nat) : Input :=
  if nbits = 64 then .record (BitVec.ofNat 64 w) else .command (BitVec.ofNat 16 w) true

end Sys2Proof.Machine
end

