-- ==== Sys2Proof/Machine/Step.lean ====
section
/-! DEFINITION. One step of the machine, and how a word is placed so that the next step runs it. -/

namespace Sys2Proof.Machine

/-- One step: wait, take a reset, run an instruction, answer a reserved command word with ILLEGAL_CMD (R59,
R115), or, with only commands presented to a halted RC, stand still (R126). -/
def step (s : State) : Host.Outcome State Fault Refusal :=
  match fetch s with
  | .idle => .next s
  | .stuck => .fault .rcHalted
  | .reset s' => .next s'
  | .instr i s' => exec i s'
  | .illegal s' => reject .illegalCmd s'

/-- `s` with the word presented as the next input, ahead of what is pending. -/
def State.withFetchWord (s : State) (nbits w : Nat) : State :=
  { s with pending := inputOfTableWord nbits w :: s.pending }

end Sys2Proof.Machine
end

