-- ==== Sys2Proof/Safety.lean ====
section
/-! DEFINITION. What counts as a safe state, and the spec-side readings statements compare the machine with:
the status chain of R89 on the raw word, the register bus replayed from its history, the last level a
sequence of commands names for a pin. -/

namespace Sys2Proof.Machine

/-! ### Safe states -/

/-- A word with exactly one bit set, the only kind written to SET and CLR (R94, R95). -/
def OneBit (v : Word) : Prop := ∃ p, p < 32 ∧ v = 1#32 <<< p

/-- What may appear on the register bus: reads of FSEL0 to FSEL5, writes of them, and one-bit writes of SET
and CLR (R37, R39); never a read of SET or CLR, never another register (R24, R27). -/
def BusEventAllowed : BusEvent → Prop
  | .read i _ => i.val ≤ 5
  | .write i v => i.val ≤ 5 ∨ (i.val = 7 ∨ i.val = 10) ∧ OneBit v

/-- What may leave ED: the six top bits zero, the tag never 3, and Unknown the single word 0 (R54, R55). -/
def EventWordAllowed (e : Word) : Prop :=
  e.extractLsb' 26 6 = 0#6 ∧ e.extractLsb' 24 2 ≠ 3#2 ∧ (e.extractLsb' 24 2 = 0#2 → e = 0#32)

/-- What may leave RC: a PinConfig only with OK, and with its signals in their ranges (R60, R61). -/
def ResponseAllowed (r : Response) : Prop :=
  ∀ cfg, r.pinConfig = some cfg →
    r.status = .ok ∧ cfg.fselIdx.toNat ≤ 5 ∧ cfg.fselShift.toNat ≤ 27 ∧ cfg.fselShift.toNat % 3 = 0 ∧
      cfg.fselCode = 1 ∧ cfg.setIdx = 7 ∧ cfg.clrIdx = 10 ∧ ∃ p, p ≤ 53 ∧ cfg.bitMask = 1#64 <<< p

/-- A safe state: the two flags never both (R18); a bus used only as R39 lists, and only once mapped (R16);
outputs of the spec's forms; FATAL_ACQ answered exactly in the halted runs (R119). -/
structure State.Safe (s : State) : Prop where
  flags : ¬(s.mapped = true ∧ s.halted = true)
  bus : ∀ e ∈ s.bus, BusEventAllowed e
  busAfterMapping : s.bus ≠ [] → s.mapped = true
  events : ∀ e ∈ s.events, EventWordAllowed e
  responses : ∀ r ∈ s.responses, ResponseAllowed r
  fatal : s.halted = true ↔ ∃ r ∈ s.responses, r.status = .fatalAcq

/-! ### The status chain of R89 on the raw command word -/

/-- The status of a command word presented to a running RC, by the checks of R89 and R123 in their order,
computed from the word's number. -/
def chainStatus (c : CmdWord) (mapped acqOk : Bool) : Status :=
  let op := c.toNat / 256 % 8
  let p := c.toNat % 256
  if c.toNat / 2048 ≠ 0 ∨ op = 6 ∨ op = 7 then .illegalCmd
  else if op ≠ 1 ∧ p > 53 then .pinRange
  else if (op = 3 ∨ op = 4) ∧ p > 31 then .pinBank
  else if (op = 2 ∨ op = 3 ∨ op = 4 ∨ op = 5) ∧ mapped = false then .notMapped
  else if op = 1 ∧ mapped = true then .alreadyMapped
  else if op = 1 ∧ acqOk = false then .fatalAcq
  else .ok

/-! ### The register block replayed from the bus history -/

/-- One transaction on the contents of FSEL0 to FSEL5 and of OUT: a read must give what the register holds
(R28); a write stores, sets or clears (R22, R23). `none` where the transaction does not fit. -/
def replayOne : BusEvent → Vector Word 6 × Word → Option (Vector Word 6 × Word)
  | .read i data, (regs, out) =>
    if h : i.val < 6 then (if regs[i.val] = data then some (regs, out) else none) else none
  | .write i v, (regs, out) =>
    if h : i.val < 6 then some (regs.set i.val v, out)
    else if i.val = 7 then some (regs, out ||| v)
    else if i.val = 10 then some (regs, out &&& ~~~v)
    else none

/-- A history of transactions, oldest first. -/
def replay : List BusEvent → Vector Word 6 × Word → Option (Vector Word 6 × Word)
  | [], c => some c
  | e :: es, c =>
    match replayOne e c with
    | some c' => replay es c'
    | none => none

/-- The register contents are what the run's bus history makes of the contents it began with (R37, R42). -/
def State.ExplainedFrom (s : State) (initial : Vector Word 6 × Word) : Prop :=
  replay s.bus initial = some (s.fsel, s.out)

/-! ### Sequences of operations -/

/-- Operations performed one after another (R42). -/
def execAll : List Instr → State → Host.Outcome State Fault Refusal
  | [], s => .next s
  | i :: is, s =>
    match exec i s with
    | .next t => execAll is t
    | .fault r => .fault r
    | .refused r => .refused r

/-- The level an operation gives pin `p`, if it is a SETPIN or CLRPIN of that pin. -/
def levelNamed (p : Nat) : Instr → Option Bool
  | .setpin pin => if pin.toNat = p then some true else none
  | .clrpin pin => if pin.toNat = p then some false else none
  | _ => none

/-- The level the last operation that names pin `p` gives it (R43). -/
def lastLevel (p : Nat) : List Instr → Option Bool
  | [] => none
  | i :: is =>
    match lastLevel p is with
    | some b => some b
    | none => levelNamed p i

/-- SETPIN and CLRPIN of the pins 0 to 31: the level commands that end OK on a mapped, running RC. -/
def isLevelCommand : Instr → Bool
  | .setpin pin | .clrpin pin => pin.toNat ≤ 31
  | _ => false

end Sys2Proof.Machine
end

