-- ==== Sys2Proof/Certificates/Slice0/Obligations.lean ====
section
/-! DEFINITION. The statements about RCAR-CORE, each after the rule of spec/ it formalises. -/

open Sys2Proof Sys2Proof.Machine

/-! ### Encoding -/

/-- O1. Every well-formed instruction's word decodes to that instruction (30_encoding sections 1 and 3). The
bits an operation ignores are among the operands: the model's choice, log entry 15. -/
def Obligations.EncodedInstructionDecodesBack : Prop :=
  ∀ i : Instr, i.WellFormed = true → decode (encode i) = .ok i

/-- O2. Every word that decodes is the word of the well-formed instruction it decodes to. This holds because
the bits an operation ignores (the low byte of MAPREG; the timestamp and whatever else a record row ignores)
stay operands of the instruction: the model's choice, log entry 15. The spec has one canonical MAPREG word,
0x0100 (R57, its decision D12); here each of 0x0100 to 0x01FF is a MAPREG of its own, all of one meaning. -/
def Obligations.DecodedWordEncodesBack : Prop :=
  ∀ (w : PortWord) (i : Instr), decode w = .ok i → i.WellFormed = true ∧ encode i = w

/-- O3. The 1,536 words 0x0000 to 0x05FF spell operations; a word with `cmd[15:11]` not 0 or op 6 or 7 is
refused by name, and these are all the others (R59, the spec's decision D11). -/
def Obligations.CommandWordsDefinedBelow0600 : Prop :=
  ∀ c : CmdWord,
    (c.toNat < 0x0600 → ∃ i, decode (.command c) = .ok i) ∧
    (0x0600 ≤ c.toNat → decode (.command c) = .error .illegalCommand) ∧
    (0x0600 ≤ c.toNat ↔
      c.extractLsb' 11 5 ≠ 0#5 ∨ c.extractLsb' 8 3 = 6#3 ∨ c.extractLsb' 8 3 = 7#3)

/-- O4. A word that decodes matches exactly one row of opcode_table.json, its instruction's, and a refused
word matches none (R53, R57, R59). -/
def Obligations.EveryWordMatchesItsOneRow : Prop :=
  ∀ w : PortWord,
    (∀ i, decode w = .ok i → opcodeTable.filter (rowMatches w) = [opcodeRow i]) ∧
    (∀ e, decode w = .error e → opcodeTable.filter (rowMatches w) = [])

/-- O5. The words the spec writes out (R64, R73, R74, R75) decode to the instructions they stand for. -/
def Obligations.WrittenOutWordsDecode : Prop :=
  decode (.command 0x0035) = .ok (.mappin 53) ∧ decode (.command 0x0100) = .ok (.mapreg 0) ∧
  decode (.command 0x0211) = .ok (.cfgout 17) ∧ decode (.command 0x0311) = .ok (.setpin 17) ∧
  decode (.command 0x0411) = .ok (.clrpin 17) ∧ decode (.command 0x0511) = .ok (.cfgouts 17) ∧
  decode (.record 0x0302FF8800000000) = .ok (.evtAxis 0 0xFF88 0 3) ∧
  decode (.record 0x0081000100000000) = .ok (.evtButton 0 1 1 0) ∧
  decode (.record 0x0705000000000000) = .ok (.evtUnknown04 0 0 5 0 7)

/-! ### The step -/

/-- O6. A step runs the instruction the next input decodes to: a record whatever RC's flags, a command when
RC is not halted, with the input taken off `pending` and the environment's `acq_ok` presented; and a word
placed by `withFetchWord` is that next input. The queue of inputs is the model's (log entries 3 and 8). -/
def Obligations.StepRunsDecodedInstruction : Prop :=
  (∀ (s : State) (r : Record) (rest : List Input) (i : Instr), s.pending = .record r :: rest →
    decode (.record r) = .ok i → step s = exec i { s with pending := rest }) ∧
  (∀ (s : State) (c : CmdWord) (ok : Bool) (rest : List Input) (i : Instr), s.halted = false →
    s.pending = .command c ok :: rest → decode (.command c) = .ok i →
    step s = exec i { s with pending := rest, acqOk := ok }) ∧
  (∀ (s : State) (w : Nat) (i : Instr), decodeTableWord 64 w = some i →
    step (s.withFetchWord 64 w) = exec i s) ∧
  (∀ (s : State) (w : Nat) (i : Instr), s.halted = false → decodeTableWord 16 w = some i →
    step (s.withFetchWord 16 w) = exec i { s with acqOk := true })

/-- O7. A reserved command word is answered ILLEGAL_CMD by a running RC, mapped or not, and changes nothing
else (R59, R115; the spec's decision D11). -/
def Obligations.ReservedWordRejected : Prop :=
  ∀ (s : State) (c : CmdWord) (ok : Bool) (rest : List Input), s.halted = false →
    s.pending = .command c ok :: rest →
    (c.extractLsb' 11 5 ≠ 0#5 ∨ c.extractLsb' 8 3 = 6#3 ∨ c.extractLsb' 8 3 = 7#3) →
    step s = .next { s with pending := rest, acqOk := ok,
                            responses := s.responses ++ [⟨.illegalCmd, none⟩] }

/-- O8. With nothing presented a step changes nothing. The model's choice, log entry 4 (R14, R146). -/
def Obligations.NothingPresentedNothingChanges : Prop :=
  ∀ s : State, s.pending = [] → step s = .next s

/-! ### The event-record decoder -/

/-- O9. Each of the nine rows of DECODE ends in a next state in every state, its event word added to ED's
output and nothing else changed (R71, R73, R74, R75). -/
def Obligations.DecoderRowsComplete : Prop :=
  ∀ (s : State) (ts : BitVec 32) (value : BitVec 16) (cls : BitVec 7) (ini : BitVec 1) (number : BitVec 8),
    exec (.evtAxis ts value ini number) s =
      .next { s with events := s.events ++ [0b000000#6 ++ 0b10#2 ++ number ++ value] } ∧
    exec (.evtButton ts value ini number) s =
      .next { s with events := s.events ++ [0b000000#6 ++ 0b01#2 ++ number ++ value] } ∧
    exec (.evtUnknown00 ts value ini number) s = .next { s with events := s.events ++ [0x00000000#32] } ∧
    exec (.evtUnknown03 ts value ini number) s = .next { s with events := s.events ++ [0x00000000#32] } ∧
    exec (.evtUnknown04 ts value cls ini number) s = .next { s with events := s.events ++ [0x00000000#32] } ∧
    exec (.evtUnknown08 ts value cls ini number) s = .next { s with events := s.events ++ [0x00000000#32] } ∧
    exec (.evtUnknown10 ts value cls ini number) s = .next { s with events := s.events ++ [0x00000000#32] } ∧
    exec (.evtUnknown20 ts value cls ini number) s = .next { s with events := s.events ++ [0x00000000#32] } ∧
    exec (.evtUnknown40 ts value cls ini number) s = .next { s with events := s.events ++ [0x00000000#32] }

/-- O10. R73: a record of class code 2, that is rawType 0x02 or 0x82, gives the Axis event of its number and
value, and changes nothing else; scenario A is an instance. -/
def Obligations.AxisRecordGivesAxisEvent : Prop :=
  (∀ (s : State) (r : Record), r.extractLsb' 48 7 = 0b0000010#7 →
    exec (decodeRecord r) s =
      .next { s with events := s.events ++ [0b000000#6 ++ 0b10#2 ++ r.extractLsb' 56 8 ++ r.extractLsb' 32 16] }) ∧
  (∀ r : Record, r.extractLsb' 48 7 = 0b0000010#7 ↔
    r.extractLsb' 48 8 = 0x02#8 ∨ r.extractLsb' 48 8 = 0x82#8) ∧
  (∀ s : State, exec (decodeRecord 0x0302FF8800000000) s =
    .next { s with events := s.events ++ [0x0203FF88#32] })

/-- O11. R74: a record of class code 1, that is rawType 0x01 or 0x81, gives the Button event of its number
and value, not reduced to 0 or 1, and changes nothing else; scenario B is an instance. -/
def Obligations.ButtonRecordGivesButtonEvent : Prop :=
  (∀ (s : State) (r : Record), r.extractLsb' 48 7 = 0b0000001#7 →
    exec (decodeRecord r) s =
      .next { s with events := s.events ++ [0b000000#6 ++ 0b01#2 ++ r.extractLsb' 56 8 ++ r.extractLsb' 32 16] }) ∧
  (∀ r : Record, r.extractLsb' 48 7 = 0b0000001#7 ↔
    r.extractLsb' 48 8 = 0x01#8 ∨ r.extractLsb' 48 8 = 0x81#8) ∧
  (∀ s : State, exec (decodeRecord 0x0081000100000000) s =
    .next { s with events := s.events ++ [0x01000001#32] })

/-- O12. R75: a record of any other class code gives the Unknown event, the word 0 whatever its number and
value, and changes nothing else; scenario C is an instance. -/
def Obligations.OtherRecordGivesUnknownEvent : Prop :=
  (∀ (s : State) (r : Record), r.extractLsb' 48 7 ≠ 0b0000010#7 → r.extractLsb' 48 7 ≠ 0b0000001#7 →
    exec (decodeRecord r) s = .next { s with events := s.events ++ [0x00000000#32] }) ∧
  (∀ r : Record, (r.extractLsb' 48 7 ≠ 0b0000010#7 ∧ r.extractLsb' 48 7 ≠ 0b0000001#7) ↔
    r.extractLsb' 48 8 = 0x00#8 ∨ r.extractLsb' 48 8 = 0x80#8 ∨
    (0x03#8 ≤ r.extractLsb' 48 8 ∧ r.extractLsb' 48 8 ≤ 0x7F#8) ∨
    (0x83#8 ≤ r.extractLsb' 48 8 ∧ r.extractLsb' 48 8 ≤ 0xFF#8)) ∧
  (∀ s : State, exec (decodeRecord 0x0705000000000000) s =
    .next { s with events := s.events ++ [0x00000000#32] })

/-- O13. R77, the masking invariant: flipping the initialization bit of a record changes nothing. -/
def Obligations.InitializationBitNeverMatters : Prop :=
  ∀ (s : State) (r : Record),
    exec (decodeRecord (r ^^^ 0x0080000000000000)) s = exec (decodeRecord r) s

/-- O14. R76, value pass-through: the event word of an Axis or Button record holds the record's value and
number bit for bit, and read as a signed number its value is the record's. -/
def Obligations.ValueAndIndexPassThrough : Prop :=
  ∀ (s : State) (r : Record), r.extractLsb' 48 7 = 2#7 ∨ r.extractLsb' 48 7 = 1#7 →
    ∃ e : Word, exec (decodeRecord r) s = .next { s with events := s.events ++ [e] } ∧
      e.extractLsb' 0 16 = r.extractLsb' 32 16 ∧ e.extractLsb' 16 8 = r.extractLsb' 56 8 ∧
      (e.extractLsb' 0 16).toInt = (r.extractLsb' 32 16).toInt

/-- O15. Totality (R78): every record gives exactly one event and never stops; of the 256 rawType values 2
give an Axis event, 2 a Button event and 252 the Unknown event. -/
def Obligations.EveryRecordGivesOneEvent : Prop :=
  (∀ (s : State) (r : Record), ∃ e : Word,
    exec (decodeRecord r) s = .next { s with events := s.events ++ [e] } ∧
    (e.extractLsb' 24 2 = 2#2 ↔ r.extractLsb' 48 8 = 0x02#8 ∨ r.extractLsb' 48 8 = 0x82#8) ∧
    (e.extractLsb' 24 2 = 1#2 ↔ r.extractLsb' 48 8 = 0x01#8 ∨ r.extractLsb' 48 8 = 0x81#8) ∧
    (e = 0x00000000#32 ↔ e.extractLsb' 24 2 = 0#2) ∧ e.extractLsb' 24 2 ≠ 3#2) ∧
  ((List.range 256).filter fun b => b % 128 = 2).length = 2 ∧
  ((List.range 256).filter fun b => b % 128 = 1).length = 2 ∧
  ((List.range 256).filter fun b => b % 128 ≠ 2 ∧ b % 128 ≠ 1).length = 252

/-- O16. Two records that agree in number, class code and value give the same result, whatever their
timestamps; for a class that is neither Axis nor Button the class code alone decides (R79). -/
def Obligations.TimestampNeverMatters : Prop :=
  (∀ (s : State) (r r' : Record), r.extractLsb' 56 8 = r'.extractLsb' 56 8 →
    r.extractLsb' 48 7 = r'.extractLsb' 48 7 → r.extractLsb' 32 16 = r'.extractLsb' 32 16 →
    exec (decodeRecord r) s = exec (decodeRecord r') s) ∧
  (∀ (s : State) (r r' : Record), r.extractLsb' 48 7 = r'.extractLsb' 48 7 → r.extractLsb' 48 7 ≠ 2#7 →
    r.extractLsb' 48 7 ≠ 1#7 → exec (decodeRecord r) s = exec (decodeRecord r') s)

/-- O17. The frame of the nine rows of DECODE: one event word is added; the flags, every register of the
window, the latch, the bus history, the answers and the inputs are as before (R15, R71). That registers 7 and
10 show the same is the model's choice of what a read of them would give (R24, the spec's D27; log entry 9). -/
def Obligations.DecoderFrame : Prop :=
  ∀ (i : Instr) (s t : State), i.isRecord = true → exec i s = .next t →
    (∃ e, t.events = s.events ++ [e]) ∧ t.mapped = s.mapped ∧ t.halted = s.halted ∧ t.fsel = s.fsel ∧
    t.out = s.out ∧ t.acqOk = s.acqOk ∧ t.draws = s.draws ∧ t.pending = s.pending ∧
    t.responses = s.responses ∧ t.bus = s.bus ∧ ∀ j : RegIdx, t.peek j = s.peek j

/-! ### The pin mapper -/

/-- O18. The five results of the pin mapper: the function-select index `p / 10` (R82), the shift `(p % 10) * 3`
(R83), the code 1 (R84), the register indexes 7 and 10 (R85) and the mask `2^p` (R86), held in 64 bits by the
spec's decision D20. -/
def Obligations.PinMapperArithmetic : Prop :=
  (∀ pin : Pin, (pinConfig pin).setIdx = 7#4 ∧ (pinConfig pin).clrIdx = 10#4 ∧ (pinConfig pin).fselCode = 1#3) ∧
  (∀ pin : Pin, pin.toNat ≤ 53 →
    (pinConfig pin).fselIdx.toNat = pin.toNat / 10 ∧ (pinConfig pin).fselIdx.toNat ≤ 5 ∧
    (pinConfig pin).fselShift.toNat = pin.toNat % 10 * 3 ∧ (pinConfig pin).fselShift.toNat + 2 ≤ 29 ∧
    (pinConfig pin).bitMask.toNat = 2 ^ pin.toNat)

/-- O19. Two different valid pins never share a field or a mask bit, and their fields in one register do not
overlap (R88). -/
def Obligations.PinLocationsAreDistinct : Prop :=
  ∀ p q : Pin, p.toNat ≤ 53 → q.toNat ≤ 53 → p ≠ q →
    ((pinConfig p).fselIdx, (pinConfig p).fselShift) ≠ ((pinConfig q).fselIdx, (pinConfig q).fselShift) ∧
    (pinConfig p).bitMask ≠ (pinConfig q).bitMask ∧
    (pinConfig p).bitMask &&& (pinConfig q).bitMask = 0 ∧
    ((pinConfig p).fselIdx = (pinConfig q).fselIdx →
      (pinConfig p).fselShift.toNat + 3 ≤ (pinConfig q).fselShift.toNat ∨
      (pinConfig q).fselShift.toNat + 3 ≤ (pinConfig p).fselShift.toNat)

/-- O20. MAPPIN of a valid pin on a running RC, mapped or not, answers OK with the PinConfig of the pin and
changes nothing else (R81; the spec's decisions D20, D21). -/
def Obligations.MappinAnswersPinConfig : Prop :=
  ∀ (s : State) (pin : Pin), s.halted = false → pin.toNat ≤ 53 →
    ∃ cfg : PinConfig,
      exec (.mappin pin) s = .next { s with responses := s.responses ++ [⟨.ok, some cfg⟩] } ∧
      cfg.fselIdx.toNat = pin.toNat / 10 ∧ cfg.fselShift.toNat = pin.toNat % 10 * 3 ∧ cfg.fselCode = 1#3 ∧
      cfg.setIdx = 7#4 ∧ cfg.clrIdx = 10#4 ∧ cfg.bitMask.toNat = 2 ^ pin.toNat

/-! ### The register controller -/

/-- O21. MAPREG on a running, unmapped RC whose acquisition succeeds sets MAPPED, whatever its low byte, and
changes nothing else (R90; the spec's decisions D12, D22). -/
def Obligations.MapregMaps : Prop :=
  ∀ (s : State) (ignored : BitVec 8), s.halted = false → s.mapped = false → s.acqOk = true →
    exec (.mapreg ignored) s =
      .next { s with mapped := true, responses := s.responses ++ [⟨.ok, none⟩] }

/-- O22. MAPREG whose acquisition fails sets HALTED, answers FATAL_ACQ and changes nothing else (R90, R119;
the spec's decision D16). -/
def Obligations.FailedMapregHalts : Prop :=
  ∀ (s : State) (ignored : BitVec 8), s.halted = false → s.mapped = false → s.acqOk = false →
    exec (.mapreg ignored) s =
      .next { s with halted := true, responses := s.responses ++ [⟨.fatalAcq, none⟩] }

/-- O23. A second MAPREG is rejected ALREADY_MAPPED whatever the acquisition would give, and changes nothing
else (R120; the spec's decision D18). -/
def Obligations.SecondMapregRejected : Prop :=
  ∀ (s : State) (ignored : BitVec 8), s.halted = false → s.mapped = true →
    exec (.mapreg ignored) s =
      .next { s with responses := s.responses ++ [⟨.alreadyMapped, none⟩] }

/-- O24. R91: CFGOUT of a valid pin on a mapped, running RC reads `RB[p/10]` and writes back the word with bit
`(p%10)*3` ORed in, two transactions, and changes nothing else; an invalid pin is rejected PIN_RANGE and an
unmapped block NOT_MAPPED; scenario D is an instance. -/
def Obligations.CfgoutOrsTheOutputCode : Prop :=
  (∀ (s : State) (pin : Pin) (k : Fin 6) (j : RegIdx), s.halted = false → s.mapped = true →
    pin.toNat ≤ 53 → k.val = pin.toNat / 10 → j.val = pin.toNat / 10 →
    exec (.cfgout pin) s =
      .next { s with fsel := s.fsel.set k (s.fsel[k] ||| 1#32 <<< (pin.toNat % 10 * 3)) k.isLt
                     bus := s.bus ++ [.read j s.fsel[k],
                                      .write j (s.fsel[k] ||| 1#32 <<< (pin.toNat % 10 * 3))]
                     responses := s.responses ++ [⟨.ok, none⟩] }) ∧
  (∀ (s : State) (pin : Pin), s.halted = false → 54 ≤ pin.toNat →
    exec (.cfgout pin) s = .next { s with responses := s.responses ++ [⟨.pinRange, none⟩] }) ∧
  (∀ (s : State) (pin : Pin), s.halted = false → s.mapped = false → pin.toNat ≤ 53 →
    exec (.cfgout pin) s = .next { s with responses := s.responses ++ [⟨.notMapped, none⟩] }) ∧
  (∀ s : State, s.halted = false → s.mapped = true → s.fsel[1] = 0x00000000#32 →
    exec (.cfgout 17) s =
      .next { s with fsel := s.fsel.set 1 0x00200000#32 (by decide)
                     bus := s.bus ++ [.read 1 0x00000000#32, .write 1 0x00200000#32]
                     responses := s.responses ++ [⟨.ok, none⟩] })

/-- O25. The OR quirk, case by case (R92): CFGOUT makes of the field `f` the field `f | 1`, which is the output
code exactly where `f` was 0 or 1. -/
def Obligations.CfgoutLeavesFieldOrOne : Prop :=
  ∀ (s : State) (pin : Pin) (k : Fin 6), s.halted = false → s.mapped = true → pin.toNat ≤ 53 →
    k.val = pin.toNat / 10 →
    ∃ t, exec (.cfgout pin) s = .next t ∧
      t.fsel[k].extractLsb' (pin.toNat % 10 * 3) 3 = s.fsel[k].extractLsb' (pin.toNat % 10 * 3) 3 ||| 1#3 ∧
      (t.fsel[k].extractLsb' (pin.toNat % 10 * 3) 3 = 1#3 ↔
        s.fsel[k].extractLsb' (pin.toNat % 10 * 3) 3 = 0#3 ∨ s.fsel[k].extractLsb' (pin.toNat % 10 * 3) 3 = 1#3)

/-- O26. CFGOUT changes one bit at most, from 0 to 1: the low bit of its pin's own field (R93). -/
def Obligations.CfgoutChangesOneBitAtMost : Prop :=
  ∀ (s t : State) (pin : Pin) (k : Fin 6) (b : Nat), exec (.cfgout pin) s = .next t →
    t.fsel[k].getLsbD b ≠ s.fsel[k].getLsbD b →
    k.val = pin.toNat / 10 ∧ b = pin.toNat % 10 * 3 ∧ s.fsel[k].getLsbD b = false ∧ t.fsel[k].getLsbD b = true

/-- O27. A configure operation repeated on the same pin changes no register a second time, and neither does
CFGOUT after CFGOUTS (R40, R92, R97). It rests on the registers reading back what was written, which the spec
marks ASSUMED (R28, its decision D25; log entry 18). -/
def Obligations.RepeatedConfigureChangesNothing : Prop :=
  ∀ (s t u : State) (pin : Pin),
    (exec (.cfgout pin) s = .next t → exec (.cfgout pin) t = .next u → u.fsel = t.fsel) ∧
    (exec (.cfgouts pin) s = .next t → exec (.cfgouts pin) t = .next u → u.fsel = t.fsel) ∧
    (exec (.cfgouts pin) s = .next t → exec (.cfgout pin) t = .next u → u.fsel = t.fsel)

/-- O28. CFGOUTS of a valid pin on a mapped, running RC reads `RB[p/10]` and writes back the word with the
field cleared and its low bit set, two transactions, and changes nothing else (R97; the spec's decision D30). -/
def Obligations.CfgoutsReplacesTheField : Prop :=
  ∀ (s : State) (pin : Pin) (k : Fin 6) (j : RegIdx), s.halted = false → s.mapped = true →
    pin.toNat ≤ 53 → k.val = pin.toNat / 10 → j.val = pin.toNat / 10 →
    exec (.cfgouts pin) s =
      .next { s with fsel := s.fsel.set k
                       (s.fsel[k] &&& ~~~(7#32 <<< (pin.toNat % 10 * 3)) ||| 1#32 <<< (pin.toNat % 10 * 3)) k.isLt
                     bus := s.bus ++ [.read j s.fsel[k], .write j
                       (s.fsel[k] &&& ~~~(7#32 <<< (pin.toNat % 10 * 3)) ||| 1#32 <<< (pin.toNat % 10 * 3))]
                     responses := s.responses ++ [⟨.ok, none⟩] }

/-- O29. After CFGOUTS the pin's field is exactly the output code whatever it held, and every other bit of
every function-select register is as before (R97). -/
def Obligations.CfgoutsLeavesFieldOne : Prop :=
  ∀ (s : State) (pin : Pin) (k : Fin 6), s.halted = false → s.mapped = true → pin.toNat ≤ 53 →
    k.val = pin.toNat / 10 →
    ∃ t, exec (.cfgouts pin) s = .next t ∧
      t.fsel[k].extractLsb' (pin.toNat % 10 * 3) 3 = 1#3 ∧
      (∀ b, b < pin.toNat % 10 * 3 ∨ pin.toNat % 10 * 3 + 3 ≤ b →
        t.fsel[k].getLsbD b = s.fsel[k].getLsbD b) ∧
      (∀ k' : Fin 6, k' ≠ k → t.fsel[k'] = s.fsel[k'])

/-- O30. SETPIN of a pin 0 to 31 on a mapped, running RC writes `1 << p` to register 7, one transaction: OUT[p]
becomes 1 and nothing else changes (R94; the spec's decision D19 for the pins it takes). -/
def Obligations.SetpinRaisesThePin : Prop :=
  ∀ (s : State) (pin : Pin), s.halted = false → s.mapped = true → pin.toNat ≤ 31 →
    exec (.setpin pin) s =
      .next { s with out := s.out ||| 1#32 <<< pin.toNat
                     bus := s.bus ++ [.write 7 (1#32 <<< pin.toNat)]
                     responses := s.responses ++ [⟨.ok, none⟩] }

/-- O31. R95: CLRPIN of a pin 0 to 31 on a mapped, running RC writes `1 << p` to register 10, one transaction:
OUT[p] becomes 0 and nothing else changes; other pins are rejected PIN_RANGE or PIN_BANK and an unmapped
block NOT_MAPPED. -/
def Obligations.ClrpinLowersThePin : Prop :=
  (∀ (s : State) (pin : Pin), s.halted = false → s.mapped = true → pin.toNat ≤ 31 →
    exec (.clrpin pin) s =
      .next { s with out := s.out &&& ~~~(1#32 <<< pin.toNat)
                     bus := s.bus ++ [.write 10 (1#32 <<< pin.toNat)]
                     responses := s.responses ++ [⟨.ok, none⟩] }) ∧
  (∀ (s : State) (pin : Pin), s.halted = false → 54 ≤ pin.toNat →
    exec (.clrpin pin) s = .next { s with responses := s.responses ++ [⟨.pinRange, none⟩] }) ∧
  (∀ (s : State) (pin : Pin), s.halted = false → 32 ≤ pin.toNat → pin.toNat ≤ 53 →
    exec (.clrpin pin) s = .next { s with responses := s.responses ++ [⟨.pinBank, none⟩] }) ∧
  (∀ (s : State) (pin : Pin), s.halted = false → s.mapped = false → pin.toNat ≤ 31 →
    exec (.clrpin pin) s = .next { s with responses := s.responses ++ [⟨.notMapped, none⟩] })

/-- O32. SETPIN and CLRPIN set or clear the pin's bit of the latch and leave every other bit; doing the same
again leaves the latch as it is (R22, R23, R96). -/
def Obligations.LevelCommandsMoveOnePin : Prop :=
  ∀ (s : State) (pin : Pin), s.halted = false → s.mapped = true → pin.toNat ≤ 31 →
    (∃ t u, exec (.setpin pin) s = .next t ∧ exec (.setpin pin) t = .next u ∧ u.out = t.out ∧
      ∀ q, q < 32 → t.out.getLsbD q = if q = pin.toNat then true else s.out.getLsbD q) ∧
    (∃ t u, exec (.clrpin pin) s = .next t ∧ exec (.clrpin pin) t = .next u ∧ u.out = t.out ∧
      ∀ q, q < 32 → t.out.getLsbD q = if q = pin.toNat then false else s.out.getLsbD q)

/-- O33. R43, last write wins: a sequence of SETPIN and CLRPIN commands of pins 0 to 31 on a mapped, running RC
runs to its end, and then OUT[p] is the level the last of them that names `p` gives it, or as before if none
does; SETPIN then CLRPIN leaves the pin low, the reverse order high. -/
def Obligations.LastWriteWins : Prop :=
  (∀ (is : List Instr) (s : State), s.halted = false → s.mapped = true →
    (∀ i ∈ is, isLevelCommand i = true) →
    ∃ t, execAll is s = .next t ∧
      (∃ answers, t.responses = s.responses ++ answers ∧ answers.length = is.length ∧
        ∀ a ∈ answers, a.status = .ok) ∧
      ∀ p, p < 32 → t.out.getLsbD p = (lastLevel p is).getD (s.out.getLsbD p)) ∧
  (∀ (s : State) (pin : Pin), s.halted = false → s.mapped = true → pin.toNat ≤ 31 →
    (∃ t, execAll [.setpin pin, .clrpin pin] s = .next t ∧ t.out.getLsbD pin.toNat = false) ∧
    (∃ t, execAll [.clrpin pin, .setpin pin] s = .next t ∧ t.out.getLsbD pin.toNat = true))

/-- O34. R98: SETPIN and CLRPIN run the same whatever the function-select registers hold, and end OK with the
pin's bit moved; CFGOUT and CFGOUTS run the same whatever OUT holds, and do not touch it. -/
def Obligations.LevelsAndFunctionSelectAreIndependent : Prop :=
  (∀ (s t : State) (pin : Pin) (regs : Vector Word 6),
    (exec (.setpin pin) s = .next t → exec (.setpin pin) { s with fsel := regs } = .next { t with fsel := regs }) ∧
    (exec (.clrpin pin) s = .next t → exec (.clrpin pin) { s with fsel := regs } = .next { t with fsel := regs })) ∧
  (∀ (s t : State) (pin : Pin) (level : Word),
    (exec (.cfgout pin) s = .next t →
      t.out = s.out ∧ exec (.cfgout pin) { s with out := level } = .next { t with out := level }) ∧
    (exec (.cfgouts pin) s = .next t →
      t.out = s.out ∧ exec (.cfgouts pin) { s with out := level } = .next { t with out := level })) ∧
  (∀ (s : State) (pin : Pin), s.halted = false → s.mapped = true → pin.toNat ≤ 31 →
    (∃ t, exec (.setpin pin) s = .next t ∧ t.out.getLsbD pin.toNat = true ∧ t.fsel = s.fsel ∧
      t.bus = s.bus ++ [.write 7 (1#32 <<< pin.toNat)] ∧ t.responses = s.responses ++ [⟨.ok, none⟩]) ∧
    (∃ t, exec (.clrpin pin) s = .next t ∧ t.out.getLsbD pin.toNat = false ∧ t.fsel = s.fsel ∧
      t.bus = s.bus ++ [.write 10 (1#32 <<< pin.toNat)] ∧ t.responses = s.responses ++ [⟨.ok, none⟩]))

/-! ### Frames of the commands -/

/-- O35. The frame of MAPPIN and MAPREG: MAPPIN changes no flag; MAPREG may change MAPPED and HALTED; neither
touches a register, the latch, the bus, ED's output or the inputs; each answers once (R81, R90). That
registers 7 and 10 show the same is the model's choice of what a read of them would give (R24, the spec's D27;
log entry 9). -/
def Obligations.MappingCommandsFrame : Prop :=
  ∀ (i : Instr) (s t : State), ((∃ pin, i = .mappin pin) ∨ ∃ ignored, i = .mapreg ignored) →
    exec i s = .next t →
    ((∃ pin, i = .mappin pin) → t.mapped = s.mapped ∧ t.halted = s.halted) ∧
    t.fsel = s.fsel ∧ t.out = s.out ∧ t.acqOk = s.acqOk ∧ t.draws = s.draws ∧ t.pending = s.pending ∧
    t.events = s.events ∧ (∃ a, t.responses = s.responses ++ [a]) ∧ t.bus = s.bus ∧
    ∀ j : RegIdx, t.peek j = s.peek j

/-- O36. The frame of CFGOUT and CFGOUTS: of the registers only `RB[p/10]` may change, and of it only the bits
of the pin's field; the flags, the latch, ED's output and the inputs are as before; each answers once (R91,
R93, R97). That registers 7 and 10 show the same is the model's choice of what a read of them would give (R24,
the spec's D27; log entry 9). -/
def Obligations.ConfigureFrame : Prop :=
  ∀ (i : Instr) (pin : Pin) (s t : State), (i = .cfgout pin ∨ i = .cfgouts pin) → exec i s = .next t →
    t.mapped = s.mapped ∧ t.halted = s.halted ∧ t.out = s.out ∧ t.acqOk = s.acqOk ∧ t.draws = s.draws ∧
    t.pending = s.pending ∧ t.events = s.events ∧ (∃ a, t.responses = s.responses ++ [a]) ∧
    (∀ j : RegIdx, j.val ≠ pin.toNat / 10 → t.peek j = s.peek j) ∧
    (∀ (j : RegIdx) (b : Nat), b < pin.toNat % 10 * 3 ∨ pin.toNat % 10 * 3 + 3 ≤ b →
      (t.peek j).getLsbD b = (s.peek j).getLsbD b)

/-- O37. The frame of SETPIN and CLRPIN: of the latch only bit `p` may change; the flags, every register of the
window, ED's output and the inputs are as before; each answers once (R94, R95, R96). Of the register clause
those rules give FSEL0 to FSEL5 alone: what a read of registers 7 and 10, which these operations write, would
give the spec leaves open (R24, its decision D27), and that it is the same after the write as before is the
model's choice, log entry 9. -/
def Obligations.LevelFrame : Prop :=
  ∀ (i : Instr) (pin : Pin) (s t : State), (i = .setpin pin ∨ i = .clrpin pin) → exec i s = .next t →
    t.mapped = s.mapped ∧ t.halted = s.halted ∧ t.fsel = s.fsel ∧ t.acqOk = s.acqOk ∧ t.draws = s.draws ∧
    t.pending = s.pending ∧ t.events = s.events ∧ (∃ a, t.responses = s.responses ++ [a]) ∧
    (∀ j : RegIdx, t.peek j = s.peek j) ∧
    (∀ q : Nat, q ≠ pin.toNat → t.out.getLsbD q = s.out.getLsbD q)

/-! ### Rejections, halting, the order of the checks -/

/-- O38. R116: a pin of 54 to 255 is rejected PIN_RANGE by every operation that takes a pin, mapped or not, with
no transaction and no other change; MAPREG never answers PIN_RANGE. -/
def Obligations.OutOfRangePinRejected : Prop :=
  (∀ (s : State) (pin : Pin), s.halted = false → 54 ≤ pin.toNat →
    exec (.mappin pin) s = .next { s with responses := s.responses ++ [⟨.pinRange, none⟩] } ∧
    exec (.cfgout pin) s = .next { s with responses := s.responses ++ [⟨.pinRange, none⟩] } ∧
    exec (.setpin pin) s = .next { s with responses := s.responses ++ [⟨.pinRange, none⟩] } ∧
    exec (.clrpin pin) s = .next { s with responses := s.responses ++ [⟨.pinRange, none⟩] } ∧
    exec (.cfgouts pin) s = .next { s with responses := s.responses ++ [⟨.pinRange, none⟩] }) ∧
  (∀ (s t : State) (ignored : BitVec 8) (a : Response), exec (.mapreg ignored) s = .next t →
    t.responses = s.responses ++ [a] → a.status ≠ .pinRange)

/-- O39. SETPIN and CLRPIN reject the pins 32 to 53 with PIN_BANK, mapped or not, and change nothing else; MAPPIN,
CFGOUT and CFGOUTS accept them (R117; the spec's decision D19). -/
def Obligations.HighPinRejectedByLevelCommands : Prop :=
  ∀ (s : State) (pin : Pin), s.halted = false → 32 ≤ pin.toNat → pin.toNat ≤ 53 →
    exec (.setpin pin) s = .next { s with responses := s.responses ++ [⟨.pinBank, none⟩] } ∧
    exec (.clrpin pin) s = .next { s with responses := s.responses ++ [⟨.pinBank, none⟩] } ∧
    (∃ t cfg, exec (.mappin pin) s = .next t ∧ t.responses = s.responses ++ [⟨.ok, cfg⟩]) ∧
    (s.mapped = true →
      (∃ t, exec (.cfgout pin) s = .next t ∧ t.responses = s.responses ++ [⟨.ok, none⟩]) ∧
      (∃ t, exec (.cfgouts pin) s = .next t ∧ t.responses = s.responses ++ [⟨.ok, none⟩]))

/-- O40. Before the mapping the register operations are rejected NOT_MAPPED and change nothing else; MAPPIN is
not (R118; the spec's decision D17). -/
def Obligations.UnmappedCommandRejected : Prop :=
  ∀ (s : State) (pin : Pin), s.halted = false → s.mapped = false →
    (pin.toNat ≤ 53 →
      exec (.cfgout pin) s = .next { s with responses := s.responses ++ [⟨.notMapped, none⟩] } ∧
      exec (.cfgouts pin) s = .next { s with responses := s.responses ++ [⟨.notMapped, none⟩] }) ∧
    (pin.toNat ≤ 31 →
      exec (.setpin pin) s = .next { s with responses := s.responses ++ [⟨.notMapped, none⟩] } ∧
      exec (.clrpin pin) s = .next { s with responses := s.responses ++ [⟨.notMapped, none⟩] }) ∧
    (∀ t, exec (.mappin pin) s = .next t → t.responses ≠ s.responses ++ [⟨.notMapped, none⟩])

/-- O41. Every command word presented to a running RC is answered once, with the status the chain of checks of
R89 gives for the word, MAPPED and the acquisition outcome (R123; the spec's decision D14). -/
def Obligations.StatusFollowsTheCheckOrder : Prop :=
  ∀ (s : State) (c : CmdWord) (ok : Bool) (rest : List Input), s.halted = false →
    s.pending = .command c ok :: rest →
    ∃ t cfg, step s = .next t ∧ t.responses = s.responses ++ [⟨chainStatus c s.mapped ok, cfg⟩]

/-- O42. A command answered with a rejection changes nothing but the answers, and one answered FATAL_ACQ changes
HALTED besides (R124; the spec's decision D15). -/
def Obligations.RejectionLeavesNoTrace : Prop :=
  ∀ (i : Instr) (s t : State) (a : Response), i.isRecord = false → exec i s = .next t →
    t.responses = s.responses ++ [a] →
    (a.status ≠ .ok → a.status ≠ .fatalAcq → t = { s with responses := s.responses ++ [⟨a.status, none⟩] }) ∧
    (a.status = .fatalAcq → t = { s with halted := true, responses := s.responses ++ [⟨.fatalAcq, none⟩] })

/-- O43. While HALTED = 1 no command runs, and a step with nothing but commands presented stands still with the
fault of that name (R126; the spec's decision D16). -/
def Obligations.HaltedControllerHasNoStep : Prop :=
  ∀ s : State, s.halted = true →
    (∀ i : Instr, i.isRecord = false → exec i s = .fault .rcHalted) ∧
    (s.pending ≠ [] → (∀ i ∈ s.pending, ∃ c ok, i = .command c ok) → step s = .fault .rcHalted)

/-- O44. While HALTED = 1 ED goes on: a record behind commands that RC does not accept is decoded, the commands
staying where they were (R126; that they stay is the model's choice, log entry 5). -/
def Obligations.HaltedControllerLetsDecoderGoOn : Prop :=
  ∀ (s : State) (waiting rest : List Input) (r : Record), s.halted = true →
    (∀ i ∈ waiting, ∃ c ok, i = .command c ok) → s.pending = waiting ++ .record r :: rest →
    step s = exec (decodeRecord r) { s with pending := waiting ++ rest }

/-- O45. A DECODE and a command can be taken in either order with the same results and the same final state
(R49). -/
def Obligations.DecodeAndCommandCommute : Prop :=
  ∀ (i j : Instr) (s : State), i.isRecord = true → j.isRecord = false →
    execAll [i, j] s = execAll [j, i] s

/-! ### The whole machine -/

/-- O46. Every step from a safe state gives a safe state: the flags never both set, the bus used only as R39
lists and only once mapped, outputs of the spec's forms, FATAL_ACQ answered exactly in halted runs. -/
def Obligations.StepKeepsSafe : Prop :=
  ∀ s t : State, s.Safe → step s = .next t → t.Safe

/-- O47. The state after reset is safe. -/
def Obligations.ResetIsSafe : Prop :=
  State.reset.Safe

/-- O48. No step but the taking of a reset clears MAPPED or HALTED; MAPPED is set only by MAPREG with the
acquisition granted, and HALTED only by MAPREG with it refused (R16, R17; the spec's decision D34). -/
def Obligations.FlagsClearedByResetOnly : Prop :=
  ∀ s t : State, step s = .next t →
    ((∀ s', fetch s ≠ .reset s') → (s.mapped = true → t.mapped = true) ∧ (s.halted = true → t.halted = true)) ∧
    (s.mapped = false → t.mapped = true →
      ∃ ignored s', fetch s = .instr (.mapreg ignored) s' ∧ s'.acqOk = true) ∧
    (s.halted = false → t.halted = true →
      ∃ ignored s', fetch s = .instr (.mapreg ignored) s' ∧ s'.acqOk = false)

/-- O49. The state after reset: neither flag set, nothing given out; FSEL0 to FSEL5 and OUT hold the open
values RB_INIT and OUT_INIT (R29, R137; the spec's decision D24; log entries 1 and 2). -/
def Obligations.ResetState : Prop :=
  State.reset.mapped = false ∧ State.reset.halted = false ∧ State.reset.events = [] ∧
  State.reset.responses = [] ∧ State.reset.bus = [] ∧ State.reset.pending = [] ∧
  State.reset.out = Config.outInit ∧ ∀ k : Fin 6, State.reset.fsel[k] = Config.rbInit k.val

/-- O50. A reset presented to the block clears both flags and begins a run with empty histories; FSEL0 to FSEL5
and OUT keep what they held; it is taken in a halted block too, past commands it never accepted (R136; the
spec's decision D24; what becomes of the inputs is the model's choice, log entry 6, and so is
that registers 7 and 10 show the same, R24, the spec's D27, log entry 9). -/
def Obligations.ResetKeepsThePeripheral : Prop :=
  ∀ (s : State) (waiting rest : List Input),
    (waiting = [] ∨ s.halted = true ∧ ∀ i ∈ waiting, ∃ c ok, i = .command c ok) →
    s.pending = waiting ++ .reset :: rest →
    ∃ t, step s = .next t ∧ t.mapped = false ∧ t.halted = false ∧ t.events = [] ∧ t.responses = [] ∧
      t.bus = [] ∧ t.pending = rest ∧ t.fsel = s.fsel ∧ t.out = s.out ∧ ∀ j : RegIdx, t.peek j = s.peek j

/-- O51. The contents of FSEL0 to FSEL5 and of OUT are at every moment what the run's bus history makes of the
contents it began with, every read in it giving the word last written: each step keeps this, and a reset
begins a history from the contents it finds (R22, R23, R28, R37, R42). That FSEL0 to FSEL5 are plain storage
and that transactions take effect in program order are choices, not the source's words: the spec's decisions
D25 and D29, marked ASSUMED there, and log entry 18, unsafe if they are false of the hardware. -/
def Obligations.BusHistoryExplainsRegisters : Prop :=
  ∀ (s t : State) (initial : Vector Word 6 × Word), s.ExplainedFrom initial → step s = .next t →
    ((∀ s', fetch s ≠ .reset s') → t.ExplainedFrom initial) ∧
    ((∃ s', fetch s = .reset s') → t.ExplainedFrom (s.fsel, s.out))

/-- O52. R37: the transactions of each operation. Answered OK, CFGOUT and CFGOUTS make a read and then a write of
the same index, SETPIN one write of register 7, CLRPIN one write of register 10; MAPPIN, MAPREG, every record
row and every operation answered otherwise make none. -/
def Obligations.TransactionsOfEachOperation : Prop :=
  ∀ (i : Instr) (s t : State), exec i s = .next t → ∃ new, t.bus = s.bus ++ new ∧
    ((∃ a, t.responses = s.responses ++ [a] ∧ a.status ≠ .ok) → new = []) ∧
    (t.responses = s.responses → new = []) ∧
    ((∃ cfg, t.responses = s.responses ++ [⟨.ok, cfg⟩]) →
      match i with
      | .cfgout pin | .cfgouts pin =>
        ∃ (j : RegIdx) (old v : Word), j.val = pin.toNat / 10 ∧ s.peek j = old ∧ t.peek j = v ∧
          new = [.read j old, .write j v]
      | .setpin pin => new = [.write 7 (1#32 <<< pin.toNat)]
      | .clrpin pin => new = [.write 10 (1#32 <<< pin.toNat)]
      | _ => new = [])

/-- O53. The numbers of the status codes: 0 to 6, each status its own, 7 never (R113; the spec's decision D13). -/
def Obligations.StatusNumbers : Prop :=
  statusCode .ok = 0 ∧ statusCode .illegalCmd = 1 ∧ statusCode .pinRange = 2 ∧ statusCode .pinBank = 3 ∧
  statusCode .notMapped = 4 ∧ statusCode .alreadyMapped = 5 ∧ statusCode .fatalAcq = 6 ∧
  (∀ a b, statusCode a = statusCode b → a = b) ∧ ∀ a, statusCode a ≠ 7

/-- O54. A read of a storage register gives the word last written to it, and a write of one leaves every other
register and the latch; a write of SET or CLR leaves every register of the window and stores nothing of its
own (R22, R23, R28). The first clause is plain storage, a choice the spec marks ASSUMED (its decision D25; log
entry 18, unsafe if false). The second, at registers 7 and 10, rests on the model's choice that a read of SET
or CLR gives a free value of the draw counter alone (R24; log entry 9). -/
def Obligations.RegisterReadAfterWrite : Prop :=
  (∀ (s : State) (k : Fin 6) (v : Word), (busRead (.fsel k) (busWrite (.fsel k) v s)).1 = v ∧
    (busWrite (.fsel k) v s).out = s.out ∧
    ∀ k' : Fin 6, k' ≠ k → (busRead (.fsel k') (busWrite (.fsel k) v s)).1 = (busRead (.fsel k') s).1) ∧
  (∀ (s : State) (v : Word) (j : RegIdx),
    (busWrite .set v s).peek j = s.peek j ∧ (busWrite .clr v s).peek j = s.peek j) ∧
  (∀ (s : State) (v : Word) (b : Nat), b < 32 →
    (busWrite .set v s).out.getLsbD b = (s.out.getLsbD b || v.getLsbD b) ∧
    (busWrite .clr v s).out.getLsbD b = (s.out.getLsbD b && !v.getLsbD b))
end

