-- ==== Sys2Proof/Laws/Decode.lean ====
section
/-! SUPPORT. The fields of packed words, and a word rebuilt from its fields: what proofs about the decoder
and the encoder cite instead of unfolding extraction and concatenation. -/

namespace Sys2Proof

variable (number : BitVec 8) (ini : BitVec 1) (cls : BitVec 7) (value : BitVec 16) (ts : BitVec 32)

@[simp] theorem recTimestamp_packRecord : recTimestamp (packRecord number ini cls value ts) = ts := by
  apply BitVec.eq_of_getLsbD_eq
  intro i hi
  simp only [recTimestamp, packRecord, BitVec.getLsbD_extractLsb', BitVec.getLsbD_append]
  grind

@[simp] theorem recValue_packRecord : recValue (packRecord number ini cls value ts) = value := by
  apply BitVec.eq_of_getLsbD_eq
  intro i hi
  simp only [recValue, packRecord, BitVec.getLsbD_extractLsb', BitVec.getLsbD_append]
  grind

@[simp] theorem recClass_packRecord : recClass (packRecord number ini cls value ts) = cls := by
  apply BitVec.eq_of_getLsbD_eq
  intro i hi
  simp only [recClass, packRecord, BitVec.getLsbD_extractLsb', BitVec.getLsbD_append]
  grind

@[simp] theorem recInit_packRecord : recInit (packRecord number ini cls value ts) = ini := by
  apply BitVec.eq_of_getLsbD_eq
  intro i hi
  simp only [recInit, packRecord, BitVec.getLsbD_extractLsb', BitVec.getLsbD_append]
  grind

@[simp] theorem recNumber_packRecord : recNumber (packRecord number ini cls value ts) = number := by
  apply BitVec.eq_of_getLsbD_eq
  intro i hi
  simp only [recNumber, packRecord, BitVec.getLsbD_extractLsb', BitVec.getLsbD_append]
  grind

/-- A record is its five fields (R51). -/
theorem packRecord_fields (r : Record) :
    packRecord (recNumber r) (recInit r) (recClass r) (recValue r) (recTimestamp r) = r := by
  apply BitVec.eq_of_getLsbD_eq
  intro i hi
  simp only [recNumber, recInit, recClass, recValue, recTimestamp, packRecord,
    BitVec.getLsbD_extractLsb', BitVec.getLsbD_append]
  grind

/-! ### The row of a record, by its class code (R53) -/

/-- The class codes of the nine rows are all the class codes. -/
theorem class_cases (c : BitVec 7) :
    c = Config.classAxis ∨ c = Config.classButton ∨ c = 0x00 ∨ c = 0x03 ∨ (0x04 ≤ c ∧ c ≤ 0x07) ∨
    (0x08 ≤ c ∧ c ≤ 0x0F) ∨ (0x10 ≤ c ∧ c ≤ 0x1F) ∨ (0x20 ≤ c ∧ c ≤ 0x3F) ∨ 0x40 ≤ c := by
  revert c; decide

theorem decodeRecord_axis {r : Record} (h : recClass r = Config.classAxis) :
    decodeRecord r = .evtAxis (recTimestamp r) (recValue r) (recInit r) (recNumber r) := by
  simp only [decodeRecord]
  rw [if_pos h]

theorem decodeRecord_button {r : Record} (h : recClass r = Config.classButton) :
    decodeRecord r = .evtButton (recTimestamp r) (recValue r) (recInit r) (recNumber r) := by
  simp only [decodeRecord]
  rw [if_neg (show ¬(recClass r = Config.classAxis) by revert h; generalize recClass r = c; revert c; decide),
    if_pos h]

theorem decodeRecord_unknown00 {r : Record} (h : recClass r = 0x00) :
    decodeRecord r = .evtUnknown00 (recTimestamp r) (recValue r) (recInit r) (recNumber r) := by
  simp only [decodeRecord]
  rw [if_neg (show ¬(recClass r = Config.classAxis) by revert h; generalize recClass r = c; revert c; decide),
    if_neg (show ¬(recClass r = Config.classButton) by revert h; generalize recClass r = c; revert c; decide),
    if_pos h]

theorem decodeRecord_unknown03 {r : Record} (h : recClass r = 0x03) :
    decodeRecord r = .evtUnknown03 (recTimestamp r) (recValue r) (recInit r) (recNumber r) := by
  simp only [decodeRecord]
  rw [if_neg (show ¬(recClass r = Config.classAxis) by revert h; generalize recClass r = c; revert c; decide),
    if_neg (show ¬(recClass r = Config.classButton) by revert h; generalize recClass r = c; revert c; decide),
    if_neg (show ¬(recClass r = 0x00) by revert h; generalize recClass r = c; revert c; decide),
    if_pos h]

theorem decodeRecord_unknown04 {r : Record} (h : 0x04 ≤ recClass r ∧ recClass r ≤ 0x07) :
    decodeRecord r = .evtUnknown04 (recTimestamp r) (recValue r) (recClass r) (recInit r) (recNumber r) := by
  simp only [decodeRecord]
  rw [if_neg (show ¬(recClass r = Config.classAxis) by revert h; generalize recClass r = c; revert c; decide),
    if_neg (show ¬(recClass r = Config.classButton) by revert h; generalize recClass r = c; revert c; decide),
    if_neg (show ¬(recClass r = 0x00) by revert h; generalize recClass r = c; revert c; decide),
    if_neg (show ¬(recClass r = 0x03) by revert h; generalize recClass r = c; revert c; decide),
    if_pos h.2]

theorem decodeRecord_unknown08 {r : Record} (h : 0x08 ≤ recClass r ∧ recClass r ≤ 0x0F) :
    decodeRecord r = .evtUnknown08 (recTimestamp r) (recValue r) (recClass r) (recInit r) (recNumber r) := by
  simp only [decodeRecord]
  rw [if_neg (show ¬(recClass r = Config.classAxis) by revert h; generalize recClass r = c; revert c; decide),
    if_neg (show ¬(recClass r = Config.classButton) by revert h; generalize recClass r = c; revert c; decide),
    if_neg (show ¬(recClass r = 0x00) by revert h; generalize recClass r = c; revert c; decide),
    if_neg (show ¬(recClass r = 0x03) by revert h; generalize recClass r = c; revert c; decide),
    if_neg (show ¬(recClass r ≤ 0x07) by revert h; generalize recClass r = c; revert c; decide),
    if_pos h.2]

theorem decodeRecord_unknown10 {r : Record} (h : 0x10 ≤ recClass r ∧ recClass r ≤ 0x1F) :
    decodeRecord r = .evtUnknown10 (recTimestamp r) (recValue r) (recClass r) (recInit r) (recNumber r) := by
  simp only [decodeRecord]
  rw [if_neg (show ¬(recClass r = Config.classAxis) by revert h; generalize recClass r = c; revert c; decide),
    if_neg (show ¬(recClass r = Config.classButton) by revert h; generalize recClass r = c; revert c; decide),
    if_neg (show ¬(recClass r = 0x00) by revert h; generalize recClass r = c; revert c; decide),
    if_neg (show ¬(recClass r = 0x03) by revert h; generalize recClass r = c; revert c; decide),
    if_neg (show ¬(recClass r ≤ 0x07) by revert h; generalize recClass r = c; revert c; decide),
    if_neg (show ¬(recClass r ≤ 0x0F) by revert h; generalize recClass r = c; revert c; decide),
    if_pos h.2]

theorem decodeRecord_unknown20 {r : Record} (h : 0x20 ≤ recClass r ∧ recClass r ≤ 0x3F) :
    decodeRecord r = .evtUnknown20 (recTimestamp r) (recValue r) (recClass r) (recInit r) (recNumber r) := by
  simp only [decodeRecord]
  rw [if_neg (show ¬(recClass r = Config.classAxis) by revert h; generalize recClass r = c; revert c; decide),
    if_neg (show ¬(recClass r = Config.classButton) by revert h; generalize recClass r = c; revert c; decide),
    if_neg (show ¬(recClass r = 0x00) by revert h; generalize recClass r = c; revert c; decide),
    if_neg (show ¬(recClass r = 0x03) by revert h; generalize recClass r = c; revert c; decide),
    if_neg (show ¬(recClass r ≤ 0x07) by revert h; generalize recClass r = c; revert c; decide),
    if_neg (show ¬(recClass r ≤ 0x0F) by revert h; generalize recClass r = c; revert c; decide),
    if_neg (show ¬(recClass r ≤ 0x1F) by revert h; generalize recClass r = c; revert c; decide),
    if_pos h.2]

theorem decodeRecord_unknown40 {r : Record} (h : 0x40 ≤ recClass r) :
    decodeRecord r = .evtUnknown40 (recTimestamp r) (recValue r) (recClass r) (recInit r) (recNumber r) := by
  simp only [decodeRecord]
  rw [if_neg (show ¬(recClass r = Config.classAxis) by revert h; generalize recClass r = c; revert c; decide),
    if_neg (show ¬(recClass r = Config.classButton) by revert h; generalize recClass r = c; revert c; decide),
    if_neg (show ¬(recClass r = 0x00) by revert h; generalize recClass r = c; revert c; decide),
    if_neg (show ¬(recClass r = 0x03) by revert h; generalize recClass r = c; revert c; decide),
    if_neg (show ¬(recClass r ≤ 0x07) by revert h; generalize recClass r = c; revert c; decide),
    if_neg (show ¬(recClass r ≤ 0x0F) by revert h; generalize recClass r = c; revert c; decide),
    if_neg (show ¬(recClass r ≤ 0x1F) by revert h; generalize recClass r = c; revert c; decide),
    if_neg (show ¬(recClass r ≤ 0x3F) by revert h; generalize recClass r = c; revert c; decide)]

/-- The 8 stream bytes of a record give the record back (R51). -/
@[simp] theorem recordOfBytes_bytesOfRecord (r : Record) : recordOfBytes (bytesOfRecord r) = .ok r := by
  simp only [bytesOfRecord, recordOfBytes, Except.ok.injEq]
  apply BitVec.eq_of_getLsbD_eq
  intro i hi
  simp only [BitVec.getLsbD_extractLsb', BitVec.getLsbD_append]
  grind

variable (op : BitVec 3) (pin : BitVec 8)

@[simp] theorem cmdReserved_packCommand : cmdReserved (packCommand op pin) = 0 := by
  apply BitVec.eq_of_getLsbD_eq
  intro i hi
  simp only [cmdReserved, packCommand, BitVec.getLsbD_extractLsb', BitVec.getLsbD_append]
  grind

@[simp] theorem cmdOp_packCommand : cmdOp (packCommand op pin) = op := by
  apply BitVec.eq_of_getLsbD_eq
  intro i hi
  simp only [cmdOp, packCommand, BitVec.getLsbD_extractLsb', BitVec.getLsbD_append]
  grind

@[simp] theorem cmdPin_packCommand : cmdPin (packCommand op pin) = pin := by
  apply BitVec.eq_of_getLsbD_eq
  intro i hi
  simp only [cmdPin, packCommand, BitVec.getLsbD_extractLsb', BitVec.getLsbD_append]
  grind

/-- A command word with reserved bits 0 is its operation code and its low byte (R56). -/
theorem packCommand_fields {c : CmdWord} (h : cmdReserved c = 0) : packCommand (cmdOp c) (cmdPin c) = c := by
  apply BitVec.eq_of_getLsbD_eq
  intro i hi
  have hb := congrArg (fun v => BitVec.getLsbD v (i - 11)) h
  simp only [cmdReserved, BitVec.getLsbD_extractLsb'] at hb
  simp only [cmdOp, cmdPin, packCommand, BitVec.getLsbD_extractLsb', BitVec.getLsbD_append]
  grind

end Sys2Proof
end

