-- ==== Sys2Proof/Laws/State.lean ====
section
/-! SUPPORT. The small lemmas of the state updates: one per field per update, so that no later proof unfolds
a record update. -/

namespace Sys2Proof.Machine

/-! ### emit -/

@[simp] theorem State.emit_mapped (s : State) (e : Word) :
    (s.emit e).mapped = s.mapped := rfl

@[simp] theorem State.emit_halted (s : State) (e : Word) :
    (s.emit e).halted = s.halted := rfl

@[simp] theorem State.emit_fsel (s : State) (e : Word) :
    (s.emit e).fsel = s.fsel := rfl

@[simp] theorem State.emit_out (s : State) (e : Word) :
    (s.emit e).out = s.out := rfl

@[simp] theorem State.emit_acqOk (s : State) (e : Word) :
    (s.emit e).acqOk = s.acqOk := rfl

@[simp] theorem State.emit_draws (s : State) (e : Word) :
    (s.emit e).draws = s.draws := rfl

@[simp] theorem State.emit_pending (s : State) (e : Word) :
    (s.emit e).pending = s.pending := rfl

@[simp] theorem State.emit_events (s : State) (e : Word) :
    (s.emit e).events = s.events ++ [e] := rfl

@[simp] theorem State.emit_responses (s : State) (e : Word) :
    (s.emit e).responses = s.responses := rfl

@[simp] theorem State.emit_bus (s : State) (e : Word) :
    (s.emit e).bus = s.bus := rfl

/-! ### respond -/

@[simp] theorem State.respond_mapped (s : State) (st : Status) (cfg : Option PinConfig) :
    (s.respond st cfg).mapped = s.mapped := rfl

@[simp] theorem State.respond_halted (s : State) (st : Status) (cfg : Option PinConfig) :
    (s.respond st cfg).halted = s.halted := rfl

@[simp] theorem State.respond_fsel (s : State) (st : Status) (cfg : Option PinConfig) :
    (s.respond st cfg).fsel = s.fsel := rfl

@[simp] theorem State.respond_out (s : State) (st : Status) (cfg : Option PinConfig) :
    (s.respond st cfg).out = s.out := rfl

@[simp] theorem State.respond_acqOk (s : State) (st : Status) (cfg : Option PinConfig) :
    (s.respond st cfg).acqOk = s.acqOk := rfl

@[simp] theorem State.respond_draws (s : State) (st : Status) (cfg : Option PinConfig) :
    (s.respond st cfg).draws = s.draws := rfl

@[simp] theorem State.respond_pending (s : State) (st : Status) (cfg : Option PinConfig) :
    (s.respond st cfg).pending = s.pending := rfl

@[simp] theorem State.respond_events (s : State) (st : Status) (cfg : Option PinConfig) :
    (s.respond st cfg).events = s.events := rfl

@[simp] theorem State.respond_responses (s : State) (st : Status) (cfg : Option PinConfig) :
    (s.respond st cfg).responses = s.responses ++ [⟨st, cfg⟩] := rfl

@[simp] theorem State.respond_bus (s : State) (st : Status) (cfg : Option PinConfig) :
    (s.respond st cfg).bus = s.bus := rfl

/-! ### record -/

@[simp] theorem State.record_mapped (s : State) (e : BusEvent) :
    (s.record e).mapped = s.mapped := rfl

@[simp] theorem State.record_halted (s : State) (e : BusEvent) :
    (s.record e).halted = s.halted := rfl

@[simp] theorem State.record_fsel (s : State) (e : BusEvent) :
    (s.record e).fsel = s.fsel := rfl

@[simp] theorem State.record_out (s : State) (e : BusEvent) :
    (s.record e).out = s.out := rfl

@[simp] theorem State.record_acqOk (s : State) (e : BusEvent) :
    (s.record e).acqOk = s.acqOk := rfl

@[simp] theorem State.record_draws (s : State) (e : BusEvent) :
    (s.record e).draws = s.draws := rfl

@[simp] theorem State.record_pending (s : State) (e : BusEvent) :
    (s.record e).pending = s.pending := rfl

@[simp] theorem State.record_events (s : State) (e : BusEvent) :
    (s.record e).events = s.events := rfl

@[simp] theorem State.record_responses (s : State) (e : BusEvent) :
    (s.record e).responses = s.responses := rfl

@[simp] theorem State.record_bus (s : State) (e : BusEvent) :
    (s.record e).bus = s.bus ++ [e] := rfl

/-! ### setMapped -/

@[simp] theorem State.setMapped_mapped (s : State) :
    (s.setMapped).mapped = true := rfl

@[simp] theorem State.setMapped_halted (s : State) :
    (s.setMapped).halted = s.halted := rfl

@[simp] theorem State.setMapped_fsel (s : State) :
    (s.setMapped).fsel = s.fsel := rfl

@[simp] theorem State.setMapped_out (s : State) :
    (s.setMapped).out = s.out := rfl

@[simp] theorem State.setMapped_acqOk (s : State) :
    (s.setMapped).acqOk = s.acqOk := rfl

@[simp] theorem State.setMapped_draws (s : State) :
    (s.setMapped).draws = s.draws := rfl

@[simp] theorem State.setMapped_pending (s : State) :
    (s.setMapped).pending = s.pending := rfl

@[simp] theorem State.setMapped_events (s : State) :
    (s.setMapped).events = s.events := rfl

@[simp] theorem State.setMapped_responses (s : State) :
    (s.setMapped).responses = s.responses := rfl

@[simp] theorem State.setMapped_bus (s : State) :
    (s.setMapped).bus = s.bus := rfl

/-! ### setHalted -/

@[simp] theorem State.setHalted_mapped (s : State) :
    (s.setHalted).mapped = s.mapped := rfl

@[simp] theorem State.setHalted_halted (s : State) :
    (s.setHalted).halted = true := rfl

@[simp] theorem State.setHalted_fsel (s : State) :
    (s.setHalted).fsel = s.fsel := rfl

@[simp] theorem State.setHalted_out (s : State) :
    (s.setHalted).out = s.out := rfl

@[simp] theorem State.setHalted_acqOk (s : State) :
    (s.setHalted).acqOk = s.acqOk := rfl

@[simp] theorem State.setHalted_draws (s : State) :
    (s.setHalted).draws = s.draws := rfl

@[simp] theorem State.setHalted_pending (s : State) :
    (s.setHalted).pending = s.pending := rfl

@[simp] theorem State.setHalted_events (s : State) :
    (s.setHalted).events = s.events := rfl

@[simp] theorem State.setHalted_responses (s : State) :
    (s.setHalted).responses = s.responses := rfl

@[simp] theorem State.setHalted_bus (s : State) :
    (s.setHalted).bus = s.bus := rfl

/-! ### taking -/

@[simp] theorem State.taking_mapped (s : State) (rest : List Input) :
    (s.taking rest).mapped = s.mapped := rfl

@[simp] theorem State.taking_halted (s : State) (rest : List Input) :
    (s.taking rest).halted = s.halted := rfl

@[simp] theorem State.taking_fsel (s : State) (rest : List Input) :
    (s.taking rest).fsel = s.fsel := rfl

@[simp] theorem State.taking_out (s : State) (rest : List Input) :
    (s.taking rest).out = s.out := rfl

@[simp] theorem State.taking_acqOk (s : State) (rest : List Input) :
    (s.taking rest).acqOk = s.acqOk := rfl

@[simp] theorem State.taking_draws (s : State) (rest : List Input) :
    (s.taking rest).draws = s.draws := rfl

@[simp] theorem State.taking_pending (s : State) (rest : List Input) :
    (s.taking rest).pending = rest := rfl

@[simp] theorem State.taking_events (s : State) (rest : List Input) :
    (s.taking rest).events = s.events := rfl

@[simp] theorem State.taking_responses (s : State) (rest : List Input) :
    (s.taking rest).responses = s.responses := rfl

@[simp] theorem State.taking_bus (s : State) (rest : List Input) :
    (s.taking rest).bus = s.bus := rfl

/-! ### takingCommand -/

@[simp] theorem State.takingCommand_mapped (s : State) (rest : List Input) (ok : Bool) :
    (s.takingCommand rest ok).mapped = s.mapped := rfl

@[simp] theorem State.takingCommand_halted (s : State) (rest : List Input) (ok : Bool) :
    (s.takingCommand rest ok).halted = s.halted := rfl

@[simp] theorem State.takingCommand_fsel (s : State) (rest : List Input) (ok : Bool) :
    (s.takingCommand rest ok).fsel = s.fsel := rfl

@[simp] theorem State.takingCommand_out (s : State) (rest : List Input) (ok : Bool) :
    (s.takingCommand rest ok).out = s.out := rfl

@[simp] theorem State.takingCommand_acqOk (s : State) (rest : List Input) (ok : Bool) :
    (s.takingCommand rest ok).acqOk = ok := rfl

@[simp] theorem State.takingCommand_draws (s : State) (rest : List Input) (ok : Bool) :
    (s.takingCommand rest ok).draws = s.draws := rfl

@[simp] theorem State.takingCommand_pending (s : State) (rest : List Input) (ok : Bool) :
    (s.takingCommand rest ok).pending = rest := rfl

@[simp] theorem State.takingCommand_events (s : State) (rest : List Input) (ok : Bool) :
    (s.takingCommand rest ok).events = s.events := rfl

@[simp] theorem State.takingCommand_responses (s : State) (rest : List Input) (ok : Bool) :
    (s.takingCommand rest ok).responses = s.responses := rfl

@[simp] theorem State.takingCommand_bus (s : State) (rest : List Input) (ok : Bool) :
    (s.takingCommand rest ok).bus = s.bus := rfl

/-! ### restart -/

@[simp] theorem State.restart_mapped (s : State) (rest : List Input) :
    (s.restart rest).mapped = false := rfl

@[simp] theorem State.restart_halted (s : State) (rest : List Input) :
    (s.restart rest).halted = false := rfl

@[simp] theorem State.restart_fsel (s : State) (rest : List Input) :
    (s.restart rest).fsel = s.fsel := rfl

@[simp] theorem State.restart_out (s : State) (rest : List Input) :
    (s.restart rest).out = s.out := rfl

@[simp] theorem State.restart_acqOk (s : State) (rest : List Input) :
    (s.restart rest).acqOk = false := rfl

@[simp] theorem State.restart_draws (s : State) (rest : List Input) :
    (s.restart rest).draws = s.draws := rfl

@[simp] theorem State.restart_pending (s : State) (rest : List Input) :
    (s.restart rest).pending = rest := rfl

@[simp] theorem State.restart_events (s : State) (rest : List Input) :
    (s.restart rest).events = [] := rfl

@[simp] theorem State.restart_responses (s : State) (rest : List Input) :
    (s.restart rest).responses = [] := rfl

@[simp] theorem State.restart_bus (s : State) (rest : List Input) :
    (s.restart rest).bus = [] := rfl

/-! ### withFetchWord -/

@[simp] theorem State.withFetchWord_mapped (s : State) (nbits w : Nat) :
    (s.withFetchWord nbits w).mapped = s.mapped := rfl

@[simp] theorem State.withFetchWord_halted (s : State) (nbits w : Nat) :
    (s.withFetchWord nbits w).halted = s.halted := rfl

@[simp] theorem State.withFetchWord_fsel (s : State) (nbits w : Nat) :
    (s.withFetchWord nbits w).fsel = s.fsel := rfl

@[simp] theorem State.withFetchWord_out (s : State) (nbits w : Nat) :
    (s.withFetchWord nbits w).out = s.out := rfl

@[simp] theorem State.withFetchWord_acqOk (s : State) (nbits w : Nat) :
    (s.withFetchWord nbits w).acqOk = s.acqOk := rfl

@[simp] theorem State.withFetchWord_draws (s : State) (nbits w : Nat) :
    (s.withFetchWord nbits w).draws = s.draws := rfl

@[simp] theorem State.withFetchWord_pending (s : State) (nbits w : Nat) :
    (s.withFetchWord nbits w).pending = inputOfTableWord nbits w :: s.pending := rfl

@[simp] theorem State.withFetchWord_events (s : State) (nbits w : Nat) :
    (s.withFetchWord nbits w).events = s.events := rfl

@[simp] theorem State.withFetchWord_responses (s : State) (nbits w : Nat) :
    (s.withFetchWord nbits w).responses = s.responses := rfl

@[simp] theorem State.withFetchWord_bus (s : State) (nbits w : Nat) :
    (s.withFetchWord nbits w).bus = s.bus := rfl

/-! ### store -/

@[simp] theorem State.store_mapped (s : State) (r : Reg) (v : Word) :
    (s.store r v).mapped = s.mapped := by cases r <;> rfl

@[simp] theorem State.store_halted (s : State) (r : Reg) (v : Word) :
    (s.store r v).halted = s.halted := by cases r <;> rfl

@[simp] theorem State.store_acqOk (s : State) (r : Reg) (v : Word) :
    (s.store r v).acqOk = s.acqOk := by cases r <;> rfl

@[simp] theorem State.store_draws (s : State) (r : Reg) (v : Word) :
    (s.store r v).draws = s.draws := by cases r <;> rfl

@[simp] theorem State.store_pending (s : State) (r : Reg) (v : Word) :
    (s.store r v).pending = s.pending := by cases r <;> rfl

@[simp] theorem State.store_events (s : State) (r : Reg) (v : Word) :
    (s.store r v).events = s.events := by cases r <;> rfl

@[simp] theorem State.store_responses (s : State) (r : Reg) (v : Word) :
    (s.store r v).responses = s.responses := by cases r <;> rfl

@[simp] theorem State.store_bus (s : State) (r : Reg) (v : Word) :
    (s.store r v).bus = s.bus := by cases r <;> rfl

@[simp] theorem State.store_fsel_fsel (s : State) (k : Fin 6) (v : Word) :
    (s.store (.fsel k) v).fsel = s.fsel.set k v := rfl

@[simp] theorem State.store_fsel_out (s : State) (k : Fin 6) (v : Word) :
    (s.store (.fsel k) v).out = s.out := rfl

@[simp] theorem State.store_set_fsel (s : State) (v : Word) :
    (s.store .set v).fsel = s.fsel := rfl

@[simp] theorem State.store_set_out (s : State) (v : Word) :
    (s.store .set v).out = s.out ||| v := rfl

@[simp] theorem State.store_clr_fsel (s : State) (v : Word) :
    (s.store .clr v).fsel = s.fsel := rfl

@[simp] theorem State.store_clr_out (s : State) (v : Word) :
    (s.store .clr v).out = s.out &&& ~~~v := rfl

/-! ### busRead -/

@[simp] theorem busRead_mapped (r : Reg) (s : State) :
    (busRead r s).2.mapped = s.mapped := by cases r <;> rfl

@[simp] theorem busRead_halted (r : Reg) (s : State) :
    (busRead r s).2.halted = s.halted := by cases r <;> rfl

@[simp] theorem busRead_fsel (r : Reg) (s : State) :
    (busRead r s).2.fsel = s.fsel := by cases r <;> rfl

@[simp] theorem busRead_out (r : Reg) (s : State) :
    (busRead r s).2.out = s.out := by cases r <;> rfl

@[simp] theorem busRead_acqOk (r : Reg) (s : State) :
    (busRead r s).2.acqOk = s.acqOk := by cases r <;> rfl

@[simp] theorem busRead_pending (r : Reg) (s : State) :
    (busRead r s).2.pending = s.pending := by cases r <;> rfl

@[simp] theorem busRead_events (r : Reg) (s : State) :
    (busRead r s).2.events = s.events := by cases r <;> rfl

@[simp] theorem busRead_responses (r : Reg) (s : State) :
    (busRead r s).2.responses = s.responses := by cases r <;> rfl

@[simp] theorem busRead_fsel_value (k : Fin 6) (s : State) :
    (busRead (.fsel k) s).1 = s.fsel[k] := rfl

@[simp] theorem busRead_fsel_draws (k : Fin 6) (s : State) :
    (busRead (.fsel k) s).2.draws = s.draws := rfl

@[simp] theorem busRead_bus (r : Reg) (s : State) :
    (busRead r s).2.bus = s.bus ++ [.read (regIndex r) (busRead r s).1] := by cases r <;> rfl

/-! ### busWrite -/

@[simp] theorem busWrite_mapped (r : Reg) (v : Word) (s : State) :
    (busWrite r v s).mapped = s.mapped := by cases r <;> rfl

@[simp] theorem busWrite_halted (r : Reg) (v : Word) (s : State) :
    (busWrite r v s).halted = s.halted := by cases r <;> rfl

@[simp] theorem busWrite_acqOk (r : Reg) (v : Word) (s : State) :
    (busWrite r v s).acqOk = s.acqOk := by cases r <;> rfl

@[simp] theorem busWrite_draws (r : Reg) (v : Word) (s : State) :
    (busWrite r v s).draws = s.draws := by cases r <;> rfl

@[simp] theorem busWrite_pending (r : Reg) (v : Word) (s : State) :
    (busWrite r v s).pending = s.pending := by cases r <;> rfl

@[simp] theorem busWrite_events (r : Reg) (v : Word) (s : State) :
    (busWrite r v s).events = s.events := by cases r <;> rfl

@[simp] theorem busWrite_responses (r : Reg) (v : Word) (s : State) :
    (busWrite r v s).responses = s.responses := by cases r <;> rfl

@[simp] theorem busWrite_bus (r : Reg) (v : Word) (s : State) :
    (busWrite r v s).bus = s.bus ++ [.write (regIndex r) v] := by cases r <;> rfl

@[simp] theorem busWrite_fsel_fsel (k : Fin 6) (v : Word) (s : State) :
    (busWrite (.fsel k) v s).fsel = s.fsel.set k v := rfl

@[simp] theorem busWrite_fsel_out (k : Fin 6) (v : Word) (s : State) :
    (busWrite (.fsel k) v s).out = s.out := rfl

@[simp] theorem busWrite_set_fsel (v : Word) (s : State) :
    (busWrite .set v s).fsel = s.fsel := rfl

@[simp] theorem busWrite_set_out (v : Word) (s : State) :
    (busWrite .set v s).out = s.out ||| v := rfl

@[simp] theorem busWrite_clr_fsel (v : Word) (s : State) :
    (busWrite .clr v s).fsel = s.fsel := rfl

@[simp] theorem busWrite_clr_out (v : Word) (s : State) :
    (busWrite .clr v s).out = s.out &&& ~~~v := rfl

/-! ### reset -/

@[simp] theorem State.reset_mapped : State.reset.mapped = false := rfl

@[simp] theorem State.reset_halted : State.reset.halted = false := rfl

@[simp] theorem State.reset_out : State.reset.out = Config.outInit := rfl

@[simp] theorem State.reset_acqOk : State.reset.acqOk = false := rfl

@[simp] theorem State.reset_draws : State.reset.draws = 0 := rfl

@[simp] theorem State.reset_pending : State.reset.pending = [] := rfl

@[simp] theorem State.reset_events : State.reset.events = [] := rfl

@[simp] theorem State.reset_responses : State.reset.responses = [] := rfl

@[simp] theorem State.reset_bus : State.reset.bus = [] := rfl

end Sys2Proof.Machine
end

