-- ==== Sys2Proof/Laws/Ops.lean ====
section
/-! SUPPORT. What each shared operation can do, said once: the front end of RC, the register bus, the pin
mapper's register, and which input is taken next. -/

namespace Sys2Proof.Machine

/-! ### The front end -/

theorem runCommand_halted (op : RcOp) (pin : Pin) (f : State → State) (cfg : Option PinConfig) (s : State)
    (h : s.halted = true) : runCommand op pin f cfg s = .fault .rcHalted := by
  simp [runCommand, h]

theorem runCommand_performs {op : RcOp} {pin : Pin} {s : State} (f : State → State)
    (cfg : Option PinConfig) (h : s.halted = false) (hc : failedCheck op pin s = none) :
    runCommand op pin f cfg s = .next ((f s).respond .ok cfg) := by
  simp [runCommand, h, hc]

theorem runCommand_rejects {op : RcOp} {pin : Pin} {s : State} {st : Status} (f : State → State)
    (cfg : Option PinConfig) (h : s.halted = false) (hc : failedCheck op pin s = some st)
    (hst : st ≠ .fatalAcq) : runCommand op pin f cfg s = .next (s.respond st none) := by
  cases st <;> simp_all [runCommand, reject]

theorem runCommand_fatal {op : RcOp} {pin : Pin} {s : State} (f : State → State)
    (cfg : Option PinConfig) (h : s.halted = false) (hc : failedCheck op pin s = some .fatalAcq) :
    runCommand op pin f cfg s = .next (s.setHalted.respond .fatalAcq none) := by
  simp [runCommand, raiseFatalAcq, h, hc]

/-- Everything a command can do when it answers a next state. -/
theorem runCommand_cases {op : RcOp} {pin : Pin} {f : State → State} {cfg : Option PinConfig} {s t : State}
    (h : runCommand op pin f cfg s = .next t) :
    s.halted = false ∧
      ((failedCheck op pin s = none ∧ t = (f s).respond .ok cfg) ∨
       (failedCheck op pin s = some .fatalAcq ∧ t = s.setHalted.respond .fatalAcq none) ∨
       ∃ st, st ≠ .fatalAcq ∧ failedCheck op pin s = some st ∧ t = s.respond st none) := by
  cases hh : s.halted with
  | true => simp [runCommand, hh] at h
  | false =>
    refine ⟨rfl, ?_⟩
    cases hc : failedCheck op pin s with
    | none => rw [runCommand_performs f cfg hh hc] at h; cases h; exact .inl ⟨rfl, rfl⟩
    | some st =>
      by_cases hst : st = .fatalAcq
      · subst hst; rw [runCommand_fatal f cfg hh hc] at h; cases h; exact .inr (.inl ⟨rfl, rfl⟩)
      · rw [runCommand_rejects f cfg hh hc hst] at h; cases h; exact .inr (.inr ⟨st, hst, rfl, rfl⟩)

/-- When every check passes. -/
theorem failedCheck_eq_none_iff (op : RcOp) (pin : Pin) (s : State) :
    failedCheck op pin s = none ↔
      (takesPin op = true → pin.toNat ≤ 53) ∧ (usesBank op = true → pin.toNat ≤ 31) ∧
      (needsMapping op = true → s.mapped = true) ∧
      (op = .mapreg → s.mapped = false ∧ s.acqOk = true) := by
  cases op <;> cases hm : s.mapped <;> cases ha : s.acqOk <;>
    simp [failedCheck, takesPin, usesBank, needsMapping, hm, ha, Config.pinMax, Config.bank0Max]
  all_goals grind

/-- OK and ILLEGAL_CMD are never the status of a failed check. -/
theorem failedCheck_ne {op : RcOp} {pin : Pin} {s : State} {st : Status} (h : failedCheck op pin s = some st) :
    st ≠ .ok ∧ st ≠ .illegalCmd := by
  unfold failedCheck at h
  repeat' split at h
  all_goals simp_all <;> subst h <;> decide

/-- FATAL_ACQ is the failed check of a MAPREG on an unmapped RC only. -/
theorem failedCheck_fatal {op : RcOp} {pin : Pin} {s : State} (h : failedCheck op pin s = some .fatalAcq) :
    op = .mapreg ∧ s.mapped = false ∧ s.acqOk = false := by
  unfold failedCheck at h
  repeat' split at h
  all_goals simp_all

/-! ### Each instruction over the shared operations -/

theorem exec_evtAxis (ts : BitVec 32) (value : BitVec 16) (ini : BitVec 1) (number : BitVec 8) (s : State) :
    exec (.evtAxis ts value ini number) s = .next (s.emit (eventWord (.axis number value))) := rfl

theorem exec_evtButton (ts : BitVec 32) (value : BitVec 16) (ini : BitVec 1) (number : BitVec 8) (s : State) :
    exec (.evtButton ts value ini number) s = .next (s.emit (eventWord (.button number value))) := rfl

theorem exec_evtUnknown00 (ts : BitVec 32) (value : BitVec 16) (ini : BitVec 1) (number : BitVec 8) (s : State) :
    exec (.evtUnknown00 ts value ini number) s = .next (s.emit (eventWord .unknown)) := rfl

theorem exec_evtUnknown03 (ts : BitVec 32) (value : BitVec 16) (ini : BitVec 1) (number : BitVec 8) (s : State) :
    exec (.evtUnknown03 ts value ini number) s = .next (s.emit (eventWord .unknown)) := rfl

theorem exec_evtUnknown04 (ts : BitVec 32) (value : BitVec 16) (cls : BitVec 7) (ini : BitVec 1) (number : BitVec 8) (s : State) :
    exec (.evtUnknown04 ts value cls ini number) s = .next (s.emit (eventWord .unknown)) := rfl

theorem exec_evtUnknown08 (ts : BitVec 32) (value : BitVec 16) (cls : BitVec 7) (ini : BitVec 1) (number : BitVec 8) (s : State) :
    exec (.evtUnknown08 ts value cls ini number) s = .next (s.emit (eventWord .unknown)) := rfl

theorem exec_evtUnknown10 (ts : BitVec 32) (value : BitVec 16) (cls : BitVec 7) (ini : BitVec 1) (number : BitVec 8) (s : State) :
    exec (.evtUnknown10 ts value cls ini number) s = .next (s.emit (eventWord .unknown)) := rfl

theorem exec_evtUnknown20 (ts : BitVec 32) (value : BitVec 16) (cls : BitVec 7) (ini : BitVec 1) (number : BitVec 8) (s : State) :
    exec (.evtUnknown20 ts value cls ini number) s = .next (s.emit (eventWord .unknown)) := rfl

theorem exec_evtUnknown40 (ts : BitVec 32) (value : BitVec 16) (cls : BitVec 7) (ini : BitVec 1) (number : BitVec 8) (s : State) :
    exec (.evtUnknown40 ts value cls ini number) s = .next (s.emit (eventWord .unknown)) := rfl

theorem exec_mappin (pin : BitVec 8) (s : State) :
    exec (.mappin pin) s = runCommand .mappin pin (fun s => s) (some (pinConfig pin)) s := rfl

theorem exec_mapreg (ignored : BitVec 8) (s : State) :
    exec (.mapreg ignored) s = runCommand .mapreg ignored State.setMapped none s := rfl

theorem exec_cfgout (pin : BitVec 8) (s : State) :
    exec (.cfgout pin) s = runCommand .cfgout pin (readModifyWrite pin (orOutputCode pin)) none s := rfl

theorem exec_setpin (pin : BitVec 8) (s : State) :
    exec (.setpin pin) s = runCommand .setpin pin (busWrite .set (levelMask pin)) none s := rfl

theorem exec_clrpin (pin : BitVec 8) (s : State) :
    exec (.clrpin pin) s = runCommand .clrpin pin (busWrite .clr (levelMask pin)) none s := rfl

theorem exec_cfgouts (pin : BitVec 8) (s : State) :
    exec (.cfgouts pin) s = runCommand .cfgouts pin (readModifyWrite pin (replaceFieldByOutput pin)) none s := rfl

/-- A record row gives one event word and changes nothing else. -/
theorem exec_record {i : Instr} (hi : i.isRecord = true) : ∃ e, ∀ s, exec i s = .next (s.emit e) := by
  cases i <;> simp only [Instr.isRecord, Bool.false_eq_true] at hi <;> exact ⟨_, fun _ => rfl⟩

/-- The function-select code CFGOUT and CFGOUTS set, and what they write, in the spec's numbers. -/
theorem orOutputCode_eq (pin : Pin) (old : Word) :
    orOutputCode pin old = old ||| 1#32 <<< (pin.toNat % 10 * 3) := rfl

theorem replaceFieldByOutput_eq (pin : Pin) (old : Word) :
    replaceFieldByOutput pin old =
      old &&& ~~~(7#32 <<< (pin.toNat % 10 * 3)) ||| 1#32 <<< (pin.toNat % 10 * 3) := rfl

/-! ### The pin mapper's register and the window -/

/-- On a valid pin the register is FSEL `p / 10`. -/
theorem fselReg_eq {pin : Pin} {k : Fin 6} (h : k.val = pin.toNat / 10) : fselReg pin = .fsel k := by
  have hk : pin.toNat / 10 < 6 := h ▸ k.isLt
  simp only [fselReg, fselIndex, Config.fselPerReg]
  congr 1
  apply Fin.ext
  simp [Fin.ofNat, Nat.mod_eq_of_lt hk, h]

@[simp] theorem regIndex_fsel_val (k : Fin 6) : (regIndex (.fsel k)).val = k.val := rfl

@[simp] theorem regAt_regIndex (r : Reg) : regAt (regIndex r) = some r := by
  rcases r with k | _ | _
  · simp [regAt]
  · decide
  · decide

theorem peek_fsel {s : State} {i : RegIdx} (h : i.val < 6) : s.peek i = s.fsel[i.val] := by
  simp [State.peek, regAt, h]

/-- The window shows the storage registers and constants only. -/
theorem peek_congr {s t : State} (hd : t.draws = s.draws) (i : RegIdx)
    (h : ∀ k : Fin 6, k.val = i.val → t.fsel[k] = s.fsel[k]) : t.peek i = s.peek i := by
  by_cases hi : i.val < 6
  · rw [peek_fsel hi, peek_fsel hi]; exact h ⟨i.val, hi⟩ rfl
  · simp only [State.peek, regAt, hi, dite_false]
    by_cases hs : i = Config.setIdx
    · simp only [hs, if_true, hd]
    · by_cases hc : i = Config.clrIdx <;> simp only [hs, hc, if_true, if_false, hd]
      simp only [show Config.clrIdx ≠ Config.setIdx by decide, if_false]

/-! ### The register bus -/

/-- A configure operation on a valid pin, as one record. -/
theorem readModifyWrite_eq {pin : Pin} {k : Fin 6} (change : Word → Word) (s : State)
    (h : k.val = pin.toNat / 10) :
    readModifyWrite pin change s =
      { s with fsel := s.fsel.set k (change s.fsel[k])
               bus := s.bus ++ [.read (regIndex (.fsel k)) s.fsel[k],
                                .write (regIndex (.fsel k)) (change s.fsel[k])] } := by
  simp only [readModifyWrite, fselReg_eq h]
  simp [busRead, busWrite, State.store, State.record]

/-- The word SETPIN and CLRPIN write has the pin's bit and no other. -/
theorem levelMask_getLsbD {pin : Pin} {b : Nat} (h : pin.toNat ≤ 31) :
    (levelMask pin).getLsbD b = decide (b = pin.toNat) := by
  simp only [levelMask, bitMask, BitVec.getLsbD_setWidth, BitVec.getLsbD_shiftLeft, BitVec.getLsbD_one]
  grind

theorem levelMask_eq {pin : Pin} (h : pin.toNat ≤ 31) : levelMask pin = 1#32 <<< pin.toNat := by
  apply BitVec.eq_of_getLsbD_eq
  intro b hb
  rw [levelMask_getLsbD h]
  simp only [BitVec.getLsbD_shiftLeft, BitVec.getLsbD_one]
  grind

/-- Everything a command can do to the registers, the latch and the bus. -/
theorem command_effect {i : Instr} {s t : State} (hi : i.isRecord = false) (h : exec i s = .next t) :
    (t.fsel = s.fsel ∧ t.out = s.out ∧ t.bus = s.bus) ∨
    (s.mapped = true ∧ ∃ (k : Fin 6) (v : Word), t.fsel = s.fsel.set k v k.isLt ∧ t.out = s.out ∧
      t.bus = s.bus ++ [.read (regIndex (.fsel k)) s.fsel[k], .write (regIndex (.fsel k)) v]) ∨
    (s.mapped = true ∧ ∃ p, p < 32 ∧ t.fsel = s.fsel ∧ t.out = s.out ||| 1#32 <<< p ∧
      t.bus = s.bus ++ [.write 7 (1#32 <<< p)]) ∨
    (s.mapped = true ∧ ∃ p, p < 32 ∧ t.fsel = s.fsel ∧ t.out = s.out &&& ~~~(1#32 <<< p) ∧
      t.bus = s.bus ++ [.write 10 (1#32 <<< p)]) := by
  have checks : ∀ {op pin}, failedCheck op pin s = none →
      (takesPin op = true → pin.toNat ≤ 53) ∧ (usesBank op = true → pin.toNat ≤ 31) ∧
      (needsMapping op = true → s.mapped = true) := by
    intro op pin hc
    obtain ⟨h1, h2, h3, -⟩ := (failedCheck_eq_none_iff op pin s).1 hc
    exact ⟨h1, h2, h3⟩
  cases i <;> simp only [Instr.isRecord, Bool.true_eq_false] at hi
  case mappin pin =>
    rw [exec_mappin] at h
    obtain ⟨-, ⟨-, rfl⟩ | ⟨-, rfl⟩ | ⟨st, -, -, rfl⟩⟩ := runCommand_cases h <;> exact .inl ⟨rfl, rfl, rfl⟩
  case mapreg =>
    rw [exec_mapreg] at h
    obtain ⟨-, ⟨-, rfl⟩ | ⟨-, rfl⟩ | ⟨st, -, -, rfl⟩⟩ := runCommand_cases h <;> exact .inl ⟨rfl, rfl, rfl⟩
  case cfgout pin =>
    rw [exec_cfgout] at h
    obtain ⟨-, ⟨hc, rfl⟩ | ⟨-, rfl⟩ | ⟨st, -, -, rfl⟩⟩ := runCommand_cases h
    · obtain ⟨hp, -, hm⟩ := checks hc
      have hk : pin.toNat / 10 < 6 := by have := hp rfl; omega
      refine .inr (.inl ⟨hm rfl, ⟨pin.toNat / 10, hk⟩, orOutputCode pin s.fsel[pin.toNat / 10], ?_⟩)
      rw [readModifyWrite_eq (k := ⟨pin.toNat / 10, hk⟩) _ _ rfl]
      exact ⟨rfl, rfl, rfl⟩
    · exact .inl ⟨rfl, rfl, rfl⟩
    · exact .inl ⟨rfl, rfl, rfl⟩
  case setpin pin =>
    rw [exec_setpin] at h
    obtain ⟨-, ⟨hc, rfl⟩ | ⟨-, rfl⟩ | ⟨st, -, -, rfl⟩⟩ := runCommand_cases h
    · obtain ⟨-, hp, hm⟩ := checks hc
      have hp := hp rfl
      refine .inr (.inr (.inl ⟨hm rfl, pin.toNat, by omega, rfl, ?_, ?_⟩)) <;> simp [levelMask_eq hp, regIndex, Config.setIdx]
    · exact .inl ⟨rfl, rfl, rfl⟩
    · exact .inl ⟨rfl, rfl, rfl⟩
  case clrpin pin =>
    rw [exec_clrpin] at h
    obtain ⟨-, ⟨hc, rfl⟩ | ⟨-, rfl⟩ | ⟨st, -, -, rfl⟩⟩ := runCommand_cases h
    · obtain ⟨-, hp, hm⟩ := checks hc
      have hp := hp rfl
      refine .inr (.inr (.inr ⟨hm rfl, pin.toNat, by omega, rfl, ?_, ?_⟩)) <;> simp [levelMask_eq hp, regIndex, Config.clrIdx]
    · exact .inl ⟨rfl, rfl, rfl⟩
    · exact .inl ⟨rfl, rfl, rfl⟩
  case cfgouts pin =>
    rw [exec_cfgouts] at h
    obtain ⟨-, ⟨hc, rfl⟩ | ⟨-, rfl⟩ | ⟨st, -, -, rfl⟩⟩ := runCommand_cases h
    · obtain ⟨hp, -, hm⟩ := checks hc
      have hk : pin.toNat / 10 < 6 := by have := hp rfl; omega
      refine .inr (.inl ⟨hm rfl, ⟨pin.toNat / 10, hk⟩, replaceFieldByOutput pin s.fsel[pin.toNat / 10], ?_⟩)
      rw [readModifyWrite_eq (k := ⟨pin.toNat / 10, hk⟩) _ _ rfl]
      exact ⟨rfl, rfl, rfl⟩
    · exact .inl ⟨rfl, rfl, rfl⟩
    · exact .inl ⟨rfl, rfl, rfl⟩

/-! ### Which input is taken -/

@[simp] theorem takeNext_nil (halted : Bool) : takeNext halted [] = none := rfl
@[simp] theorem takeNext_record (halted : Bool) (r : Record) (rest : List Input) :
    takeNext halted (.record r :: rest) = some (.record r, rest) := rfl
@[simp] theorem takeNext_reset (halted : Bool) (rest : List Input) :
    takeNext halted (.reset :: rest) = some (.reset, rest) := rfl
@[simp] theorem takeNext_command (c : CmdWord) (ok : Bool) (rest : List Input) :
    takeNext false (.command c ok :: rest) = some (.command c ok, rest) := rfl

/-- While halted RC accepts no command (R126). -/
theorem takeNext_halted_ne_command {l rest : List Input} {c : CmdWord} {ok : Bool} :
    takeNext true l ≠ some (.command c ok, rest) := by
  induction l with
  | nil => simp
  | cons i l ih =>
    cases i with
    | record r => simp
    | reset => simp
    | command c' ok' =>
      simp only [takeNext, if_true]
      split
      · simp
      · exact ih

/-- While halted nothing can be taken exactly when nothing but commands is presented. -/
theorem takeNext_halted_eq_none_iff (l : List Input) :
    takeNext true l = none ↔ ∀ i ∈ l, ∃ c ok, i = .command c ok := by
  induction l with
  | nil => simp
  | cons i l ih =>
    cases i with
    | record r => simp
    | reset => simp
    | command c ok =>
      simp only [takeNext, if_true, List.forall_mem_cons]
      rw [← ih]
      split <;> simp_all

/-- While running something can be taken as soon as anything is presented. -/
theorem takeNext_running_eq_none_iff (l : List Input) : takeNext false l = none ↔ l = [] := by
  cases l with
  | nil => simp
  | cons i l => cases i <;> simp

/-- While halted a record or a reset behind commands is what is taken: the commands stay before a record and
are dropped at a reset. -/
theorem takeNext_halted_skips {waiting : List Input} (hw : ∀ i ∈ waiting, ∃ c ok, i = .command c ok)
    (r : Record) (rest : List Input) :
    takeNext true (waiting ++ .record r :: rest) = some (.record r, waiting ++ rest) ∧
    takeNext true (waiting ++ .reset :: rest) = some (.reset, rest) := by
  induction waiting with
  | nil => exact ⟨rfl, rfl⟩
  | cons w ws ih =>
    obtain ⟨c, ok, rfl⟩ := hw w (List.mem_cons_self ..)
    obtain ⟨h1, h2⟩ := ih fun i hi => hw i (List.mem_cons_of_mem _ hi)
    exact ⟨by simp [takeNext, h1], by simp [takeNext, h2]⟩

/-- Records decode to record rows, and command words to commands (R63). -/
theorem decodeRecord_isRecord (r : Record) : (decodeRecord r).isRecord = true := by
  rcases class_cases (recClass r) with h | h | h | h | h | h | h | h | h
  · rw [decodeRecord_axis h]; rfl
  · rw [decodeRecord_button h]; rfl
  · rw [decodeRecord_unknown00 h]; rfl
  · rw [decodeRecord_unknown03 h]; rfl
  · rw [decodeRecord_unknown04 h]; rfl
  · rw [decodeRecord_unknown08 h]; rfl
  · rw [decodeRecord_unknown10 h]; rfl
  · rw [decodeRecord_unknown20 h]; rfl
  · rw [decodeRecord_unknown40 h]; rfl

theorem decodeCommand_isRecord {c : CmdWord} {i : Instr} (h : decodeCommand c = .ok i) :
    i.isRecord = false := by
  unfold decodeCommand at h
  repeat' split at h
  all_goals first | contradiction | (cases h; rfl)

/-- What a step can do, said once: every next state comes from one of these. -/
theorem step_cases {s t : State} (h : step s = .next t) :
    (s.pending = [] ∧ t = s) ∨
    (∃ rest, takeNext s.halted s.pending = some (.reset, rest) ∧ t = s.restart rest) ∨
    (∃ r rest, takeNext s.halted s.pending = some (.record r, rest) ∧
      exec (decodeRecord r) (s.taking rest) = .next t) ∨
    (∃ c ok rest i, s.halted = false ∧ takeNext s.halted s.pending = some (.command c ok, rest) ∧
      decodeCommand c = .ok i ∧ exec i (s.takingCommand rest ok) = .next t) ∨
    (∃ c ok rest e, s.halted = false ∧ takeNext s.halted s.pending = some (.command c ok, rest) ∧
      decodeCommand c = .error e ∧ t = (s.takingCommand rest ok).respond .illegalCmd none) := by
  unfold step fetch at h
  cases hn : takeNext s.halted s.pending with
  | none =>
    simp only [hn] at h
    by_cases hp : s.pending = []
    · simp only [hp, if_true] at h; cases h; exact .inl ⟨hp, rfl⟩
    · simp [hp] at h
  | some p =>
    obtain ⟨i, rest⟩ := p
    have hh : ∀ c ok, i = .command c ok → s.halted = false := by
      intro c ok hi
      cases hs : s.halted with
      | false => rfl
      | true => rw [hs, hi] at hn; exact absurd hn takeNext_halted_ne_command
    cases i with
    | reset => simp only [hn] at h; cases h; exact .inr (.inl ⟨rest, rfl, rfl⟩)
    | record r => simp only [hn] at h; exact .inr (.inr (.inl ⟨r, rest, rfl, h⟩))
    | command c ok =>
      cases hd : decodeCommand c with
      | ok i =>
        simp only [hn, hd] at h
        exact .inr (.inr (.inr (.inl ⟨c, ok, rest, i, hh c ok rfl, rfl, hd, h⟩)))
      | error e =>
        simp only [hn, hd, reject] at h
        cases h
        exact .inr (.inr (.inr (.inr ⟨c, ok, rest, e, hh c ok rfl, rfl, hd, rfl⟩)))

end Sys2Proof.Machine
end

