-- ==== Sys2Proof/Laws/PerInstr.lean ====
section
/-! SUPPORT. A fact of every instruction, made per instruction: the word that encodes it has the width of its
row of opcode_table.json and the row's match under the row's mask. -/

namespace Sys2Proof.Laws

/-- A mask and a match on the class field `rec[54:48]` alone look at the class code alone. -/
theorem record_mask_iff (r : Record) (m p : BitVec 7) :
    r &&& m.setWidth 64 <<< 48 = p.setWidth 64 <<< 48 ↔ recClass r &&& m = p := by
  constructor
  · intro h
    apply BitVec.eq_of_getLsbD_eq
    intro i hi
    have hb := congrArg (fun v => BitVec.getLsbD v (48 + i)) h
    simp only [BitVec.getLsbD_and, BitVec.getLsbD_shiftLeft, BitVec.getLsbD_setWidth] at hb
    simp only [recClass, BitVec.getLsbD_and, BitVec.getLsbD_extractLsb']
    grind
  · intro h
    apply BitVec.eq_of_getLsbD_eq
    intro i hi
    have hb := congrArg (fun v => BitVec.getLsbD v (i - 48)) h
    simp only [recClass, BitVec.getLsbD_and, BitVec.getLsbD_extractLsb'] at hb
    simp only [BitVec.getLsbD_and, BitVec.getLsbD_shiftLeft, BitVec.getLsbD_setWidth]
    grind

/-- A mask on the high byte of a command word looks at the reserved bits and the operation code alone. -/
theorem command_mask_iff (c : CmdWord) (p : BitVec 8) :
    c.setWidth 64 &&& (0xFF : BitVec 8).setWidth 64 <<< 8 = p.setWidth 64 <<< 8 ↔
      cmdReserved c ++ cmdOp c = p := by
  have hf : (0xFF : BitVec 8) = BitVec.allOnes 8 := by decide
  rw [hf]
  constructor
  · intro h
    apply BitVec.eq_of_getLsbD_eq
    intro i hi
    have hb := congrArg (fun v => BitVec.getLsbD v (8 + i)) h
    simp only [BitVec.getLsbD_and, BitVec.getLsbD_shiftLeft, BitVec.getLsbD_setWidth,
      BitVec.getLsbD_allOnes] at hb
    simp only [cmdReserved, cmdOp, BitVec.getLsbD_append, BitVec.getLsbD_extractLsb']
    grind
  · intro h
    apply BitVec.eq_of_getLsbD_eq
    intro i hi
    have hb := congrArg (fun v => BitVec.getLsbD v (i - 8)) h
    simp only [cmdReserved, cmdOp, BitVec.getLsbD_append, BitVec.getLsbD_extractLsb'] at hb
    simp only [BitVec.getLsbD_and, BitVec.getLsbD_shiftLeft, BitVec.getLsbD_setWidth,
      BitVec.getLsbD_allOnes]
    grind

namespace EncodesToItsRow

/-- A well-formed instruction's word matches its own row. -/
def Statement (i : Instr) : Prop := i.WellFormed = true → rowMatches (encode i) (opcodeRow i) = true

theorem of_record {i : Instr} {r : Record} {name : String} {mask pattern : BitVec 64} (m p : BitVec 7)
    (he : encode i = .record r) (hr : opcodeRow i = ⟨name, 64, mask, pattern⟩)
    (hm : mask = m.setWidth 64 <<< 48) (hp : pattern = p.setWidth 64 <<< 48)
    (hc : i.WellFormed = true → recClass r &&& m = p) : Statement i := by
  intro hw
  have h := (record_mask_iff r m p).2 (hc hw)
  simp [rowMatches, he, hr, hm, hp, portWidth, portBits, h]

theorem of_command {i : Instr} {c : CmdWord} {name : String} {pattern : BitVec 64} (p : BitVec 8)
    (he : encode i = .command c) (hr : opcodeRow i = ⟨name, 16, 0xFF00, pattern⟩)
    (hp : pattern = p.setWidth 64 <<< 8) (hc : cmdReserved c ++ cmdOp c = p) : Statement i := by
  intro _
  have h := (command_mask_iff c p).2 hc
  have hm : (0xFF00 : BitVec 64) = (0xFF : BitVec 8).setWidth 64 <<< 8 := by decide
  simp only [rowMatches, he, hr, hp, hm, portWidth, portBits, h, BEq.rfl, Bool.and_self]

theorem evtAxis (ts : BitVec 32) (value : BitVec 16) (ini : BitVec 1) (number : BitVec 8) :
    Statement (.evtAxis ts value ini number) :=
  of_record 0x7F 0x02 rfl rfl (by decide) (by decide)
    (fun _ => by rw [recClass_packRecord]; decide)

theorem evtButton (ts : BitVec 32) (value : BitVec 16) (ini : BitVec 1) (number : BitVec 8) :
    Statement (.evtButton ts value ini number) :=
  of_record 0x7F 0x01 rfl rfl (by decide) (by decide)
    (fun _ => by rw [recClass_packRecord]; decide)

theorem evtUnknown00 (ts : BitVec 32) (value : BitVec 16) (ini : BitVec 1) (number : BitVec 8) :
    Statement (.evtUnknown00 ts value ini number) :=
  of_record 0x7F 0x00 rfl rfl (by decide) (by decide)
    (fun _ => by rw [recClass_packRecord]; decide)

theorem evtUnknown03 (ts : BitVec 32) (value : BitVec 16) (ini : BitVec 1) (number : BitVec 8) :
    Statement (.evtUnknown03 ts value ini number) :=
  of_record 0x7F 0x03 rfl rfl (by decide) (by decide)
    (fun _ => by rw [recClass_packRecord]; decide)

theorem evtUnknown04 (ts : BitVec 32) (value : BitVec 16) (cls : BitVec 7) (ini : BitVec 1) (number : BitVec 8) :
    Statement (.evtUnknown04 ts value cls ini number) :=
  of_record 0x7C 0x04 rfl rfl (by decide) (by decide)
    (fun h => by rw [recClass_packRecord]; simp only [Instr.WellFormed] at h; revert h; revert cls; decide)

theorem evtUnknown08 (ts : BitVec 32) (value : BitVec 16) (cls : BitVec 7) (ini : BitVec 1) (number : BitVec 8) :
    Statement (.evtUnknown08 ts value cls ini number) :=
  of_record 0x78 0x08 rfl rfl (by decide) (by decide)
    (fun h => by rw [recClass_packRecord]; simp only [Instr.WellFormed] at h; revert h; revert cls; decide)

theorem evtUnknown10 (ts : BitVec 32) (value : BitVec 16) (cls : BitVec 7) (ini : BitVec 1) (number : BitVec 8) :
    Statement (.evtUnknown10 ts value cls ini number) :=
  of_record 0x70 0x10 rfl rfl (by decide) (by decide)
    (fun h => by rw [recClass_packRecord]; simp only [Instr.WellFormed] at h; revert h; revert cls; decide)

theorem evtUnknown20 (ts : BitVec 32) (value : BitVec 16) (cls : BitVec 7) (ini : BitVec 1) (number : BitVec 8) :
    Statement (.evtUnknown20 ts value cls ini number) :=
  of_record 0x60 0x20 rfl rfl (by decide) (by decide)
    (fun h => by rw [recClass_packRecord]; simp only [Instr.WellFormed] at h; revert h; revert cls; decide)

theorem evtUnknown40 (ts : BitVec 32) (value : BitVec 16) (cls : BitVec 7) (ini : BitVec 1) (number : BitVec 8) :
    Statement (.evtUnknown40 ts value cls ini number) :=
  of_record 0x40 0x40 rfl rfl (by decide) (by decide)
    (fun h => by rw [recClass_packRecord]; simp only [Instr.WellFormed] at h; revert h; revert cls; decide)

theorem mappin (pin : BitVec 8) : Statement (.mappin pin) :=
  of_command 0x00 rfl rfl (by decide) (by rw [cmdReserved_packCommand, cmdOp_packCommand]; decide)

theorem mapreg (ignored : BitVec 8) : Statement (.mapreg ignored) :=
  of_command 0x01 rfl rfl (by decide) (by rw [cmdReserved_packCommand, cmdOp_packCommand]; decide)

theorem cfgout (pin : BitVec 8) : Statement (.cfgout pin) :=
  of_command 0x02 rfl rfl (by decide) (by rw [cmdReserved_packCommand, cmdOp_packCommand]; decide)

theorem setpin (pin : BitVec 8) : Statement (.setpin pin) :=
  of_command 0x03 rfl rfl (by decide) (by rw [cmdReserved_packCommand, cmdOp_packCommand]; decide)

theorem clrpin (pin : BitVec 8) : Statement (.clrpin pin) :=
  of_command 0x04 rfl rfl (by decide) (by rw [cmdReserved_packCommand, cmdOp_packCommand]; decide)

theorem cfgouts (pin : BitVec 8) : Statement (.cfgouts pin) :=
  of_command 0x05 rfl rfl (by decide) (by rw [cmdReserved_packCommand, cmdOp_packCommand]; decide)

end EncodesToItsRow

end Sys2Proof.Laws
end

