-- ==== Sys2Proof/Machine/Sequences.lean ====
section
/-! DEFINITION. What the spec gives of the host around the block (43_host_sequences; 30_encoding R64 to
R66): the inputs its two loops present, the line it prints for an event, its exit codes, and the spec's
text forms. None of this is part of the block (R5, R101; log entry 17). -/

namespace Sys2Proof.Machine

/-- How the host's input side ends (R102, R104, R121). -/
inductive HostError where
  /-- FatalAcquisitionError: the input device path cannot be opened (R102, R114). -/
  | deviceOpenFailed
  /-- StreamReadError: a read that did not return exactly 8 bytes, end of stream included (R104, R121). -/
  | streamRead
deriving DecidableEq, Repr

/-- The whole records PollLoop reads off a stream that ends; a short tail is dropped (R32, R104). -/
def pollRecords : List Byte → List Record
  | b0 :: b1 :: b2 :: b3 :: b4 :: b5 :: b6 :: b7 :: rest =>
    (b7 ++ b6 ++ b5 ++ b4 ++ b3 ++ b2 ++ b1 ++ b0) :: pollRecords rest
  | _ => []

/-- A run of PollLoop: what it presents to ED, and its only end (R103, R104, R110). -/
def pollRun (openOk : Bool) (stream : List Byte) : List Input × HostError :=
  if openOk = true then ((pollRecords stream).map .record, .streamRead) else ([], .deviceOpenFailed)

/-- The exit code of the host's process (R109): 1 on a failed open, unspecified after a loop error. The spec
does not say whether "failed device open" also covers the register device /dev/mem, whose failed open the
block answers FATAL_ACQ. DESIGN CHOICE, log entry 20: the input device only; FATAL_ACQ gets no exit code. -/
def exitCode : HostError → Nat
  | .deviceOpenFailed => 1
  | .streamRead => Config.loopErrorExit

/-- The body of BlinkLoop, so many periods of it; the suspensions present nothing (R107). -/
def blinkPeriods (pin : Pin) : Nat → List Input
  | 0 => []
  | n + 1 => .command (0x0300 ||| pin.setWidth 16) true :: .command (0x0400 ||| pin.setWidth 16) true ::
      blinkPeriods pin n

/-- What BlinkLoop presents up to its n-th period: MAPREG, CFGOUT, then SETPIN and CLRPIN in turn; a failed
acquisition ends it (R107, R119). -/
def blinkInputs (pin : Pin) (acqOk : Bool) (n : Nat) : List Input :=
  .command 0x0100 acqOk ::
    (if acqOk = true then .command (0x0200 ||| pin.setWidth 16) true :: blinkPeriods pin n else [])

/-- The source's blink variant: pin 17 (R108). -/
def hostBlink (acqOk : Bool) (n : Nat) : List Input := blinkInputs 17 acqOk n

/-- The line the host prints for an event word (R105); `none` for the tag 3, which is never produced (U18). -/
def consoleLine (evt : Word) : Option String :=
  let payload := toString (evt.extractLsb' 16 8).toNat ++ " VALUE " ++ toString (evt.extractLsb' 0 16).toInt
  let tag : BitVec 2 := evt.extractLsb' 24 2
  if tag = 2 then some ("AXIS " ++ payload)
  else if tag = 1 then some ("BUTTON " ++ payload)
  else if tag = 0 then some Config.unknownLine
  else none

/-- The record the text `REC ts, value, type, number` stands for (R65). -/
def recordOfText (ts : BitVec 32) (value : BitVec 16) (rawType number : BitVec 8) : Record :=
  number ++ rawType ++ value ++ ts

/-- The command syntax of the spec's examples (R64); `none` for a record. -/
def commandText : Instr → Option String
  | .mappin pin => some ("MAPPIN " ++ toString pin.toNat)
  | .mapreg _ => some "MAPREG"
  | .cfgout pin => some ("CFGOUT " ++ toString pin.toNat)
  | .setpin pin => some ("SETPIN " ++ toString pin.toNat)
  | .clrpin pin => some ("CLRPIN " ++ toString pin.toNat)
  | .cfgouts pin => some ("CFGOUTS " ++ toString pin.toNat)
  | .evtAxis _ _ _ _ | .evtButton _ _ _ _ | .evtUnknown00 _ _ _ _ | .evtUnknown03 _ _ _ _
  | .evtUnknown04 _ _ _ _ _ | .evtUnknown08 _ _ _ _ _ | .evtUnknown10 _ _ _ _ _
  | .evtUnknown20 _ _ _ _ _ | .evtUnknown40 _ _ _ _ _ => none

end Sys2Proof.Machine
end

