-- ==== Sys2Proof/Tests/Slice0.lean ====
section
/-! SUPPORT. Small tests, their expected results taken from the spec's encodings and vectors (30_encoding,
95_test_vectors), and for each statement with hypotheses a state and operands that meet them. -/

open Sys2Proof Sys2Proof.Machine

namespace Sys2Proof.Tests

/-- A mapped, running block whose registers all hold `w` and whose latch holds `level`. -/
def mappedState (w level : Word) : State where
  mapped := true
  halted := false
  fsel := #v[w, w, w, w, w, w]
  out := level
  acqOk := true
  draws := 0
  pending := []
  events := []
  responses := []
  bus := []

/-- The same block before its mapping, with the acquisition outcome to come. -/
def unmappedState (acqOk : Bool) : State := { mappedState 0 0 with mapped := false, acqOk := acqOk }

/-- A halted block with the given inputs presented. -/
def haltedState (pending : List Input) : State :=
  { mappedState 0 0 with mapped := false, halted := true, pending := pending }

/-- A mapped, running block with the given inputs presented. -/
def presented (pending : List Input) : State := { mappedState 0 0 with pending := pending }

/-- A view of the next state, if the outcome is one. -/
def seen {α : Type} (o : Host.Outcome State Fault Refusal) (view : State → α) : Option α :=
  match o with
  | .next t => some (view t)
  | .fault _ => none
  | .refused _ => none

/-! ### Well-formedness: an ill-formed term for each check -/

theorem test_wf_refuses_classes_outside_04_07 :
    (Instr.evtUnknown04 0 0 0x03 0 0).WellFormed = false ∧ (Instr.evtUnknown04 0 0 0x08 0 0).WellFormed = false ∧
    (Instr.evtUnknown04 0 0 0x04 0 0).WellFormed = true ∧ (Instr.evtUnknown04 0 0 0x07 0 0).WellFormed = true := by
  decide

theorem test_wf_refuses_classes_outside_08_0F :
    (Instr.evtUnknown08 0 0 0x07 0 0).WellFormed = false ∧ (Instr.evtUnknown08 0 0 0x10 0 0).WellFormed = false ∧
    (Instr.evtUnknown08 0 0 0x08 0 0).WellFormed = true ∧ (Instr.evtUnknown08 0 0 0x0F 0 0).WellFormed = true := by
  decide

theorem test_wf_refuses_classes_outside_10_1F :
    (Instr.evtUnknown10 0 0 0x0F 0 0).WellFormed = false ∧ (Instr.evtUnknown10 0 0 0x20 0 0).WellFormed = false ∧
    (Instr.evtUnknown10 0 0 0x10 0 0).WellFormed = true ∧ (Instr.evtUnknown10 0 0 0x1F 0 0).WellFormed = true := by
  decide

theorem test_wf_refuses_classes_outside_20_3F :
    (Instr.evtUnknown20 0 0 0x1F 0 0).WellFormed = false ∧ (Instr.evtUnknown20 0 0 0x40 0 0).WellFormed = false ∧
    (Instr.evtUnknown20 0 0 0x20 0 0).WellFormed = true ∧ (Instr.evtUnknown20 0 0 0x3F 0 0).WellFormed = true := by
  decide

theorem test_wf_refuses_classes_outside_40_7F :
    (Instr.evtUnknown40 0 0 0x3F 0 0).WellFormed = false ∧ (Instr.evtUnknown40 0 0 0x40 0 0).WellFormed = true ∧
    (Instr.evtUnknown40 0 0 0x7F 0 0).WellFormed = true := by
  decide

/-! ### Decoding: a word for each constructor, bit by bit from R51 and R56
(number, init, class, value, timestamp; reserved, op, pin) -/

theorem test_decode_axis :
    decode (.record 0b00000011_0_0000010_1111111110001000_00000000000000000000000000000000) =
      .ok (.evtAxis 0 0xFF88 0 3) := rfl

theorem test_decode_button :
    decode (.record 0b00000000_1_0000001_0000000000000001_00000000000000000000000000000000) =
      .ok (.evtButton 0 1 1 0) := rfl

theorem test_decode_unknown00 :
    decode (.record 0b00001001_1_0000000_0000000000000101_00000000000000000000000000000000) =
      .ok (.evtUnknown00 0 5 1 9) := rfl

theorem test_decode_unknown03 :
    decode (.record 0b00000001_0_0000011_1111111111111111_00000000000000000000000000000111) =
      .ok (.evtUnknown03 7 0xFFFF 0 1) := rfl

theorem test_decode_unknown04 :
    decode (.record 0b00000111_0_0000101_0000000000000000_00000000000000000000000000000000) =
      .ok (.evtUnknown04 0 0 0x05 0 7) := rfl

theorem test_decode_unknown08 :
    decode (.record 0b00000010_0_0001000_0000000000000001_00000000000000000000000000000000) =
      .ok (.evtUnknown08 0 1 0x08 0 2) := rfl

theorem test_decode_unknown10 :
    decode (.record 0b00001000_0_0010010_0000000001100100_00000000000000000000000000000000) =
      .ok (.evtUnknown10 0 100 0x12 0 8) := rfl

theorem test_decode_unknown20 :
    decode (.record 0b00000110_0_0111111_0000000000000001_00000000000000000000000000000000) =
      .ok (.evtUnknown20 0 1 0x3F 0 6) := rfl

theorem test_decode_unknown40 :
    decode (.record 0b00000110_0_1000010_1111111111111110_00000000000000000000000000000000) =
      .ok (.evtUnknown40 0 0xFFFE 0x42 0 6) := rfl

theorem test_decode_mappin : decode (.command 0b00000_000_00110101) = .ok (.mappin 53) := rfl
theorem test_decode_mapreg : decode (.command 0b00000_001_10101011) = .ok (.mapreg 0xAB) := rfl
theorem test_decode_cfgout : decode (.command 0b00000_010_00010001) = .ok (.cfgout 17) := rfl
theorem test_decode_setpin : decode (.command 0b00000_011_00101000) = .ok (.setpin 40) := rfl
theorem test_decode_clrpin : decode (.command 0b00000_100_00010001) = .ok (.clrpin 17) := rfl
theorem test_decode_cfgouts : decode (.command 0b00000_101_11111111) = .ok (.cfgouts 255) := rfl

/-- V-ENC: op 6, op 7, and a word with a reserved bit set are refused by name. -/
theorem test_decode_refuses_reserved_words :
    decode (.command 0x0600) = .error .illegalCommand ∧ decode (.command 0x07FF) = .error .illegalCommand ∧
    decode (.command 0x0811) = .error .illegalCommand ∧ decode (.command 0x8211) = .error .illegalCommand ∧
    decode (.command 0xFFFF) = .error .illegalCommand := ⟨rfl, rfl, rfl, rfl, rfl⟩

/-- V-DEC row D4: stream bytes, record word, and the text form of R65; seven bytes are no record (R32). -/
theorem test_record_of_bytes :
    recordOfBytes [0x78, 0x56, 0x34, 0x12, 0xFF, 0x7F, 0x82, 0xFF] = .ok 0xFF827FFF12345678 ∧
    recordOfText 0x12345678 32767 0x82 255 = 0xFF827FFF12345678 ∧
    recordOfBytes [0, 0, 0, 0, 0, 0, 0] = .error .notAWholeRecord := ⟨rfl, by decide, rfl⟩

theorem test_table_words :
    decodeTableWord 64 0x0002000000000000 = some (.evtAxis 0 0 0 0) ∧
    decodeTableWord 16 0x0500 = some (.cfgouts 0) ∧ decodeTableWord 32 0 = none := ⟨rfl, rfl, rfl⟩

/-! ### The decoder (V-DEC) -/

theorem test_axis_minimum_value : -- row D6
    seen (exec (decodeRecord 0x00028000FFFFFFFF) (haltedState [])) (·.events) = some [0x02008000#32] := by decide
theorem test_axis_init_set : -- row D4
    seen (exec (decodeRecord 0xFF827FFF12345678) (unmappedState false)) (·.events) = some [0x02FF7FFF#32] := by
  decide
theorem test_button_value_not_reduced : -- row D7
    seen (exec (decodeRecord 0xC801123400000000) (mappedState 0 0)) (·.events) = some [0x01C81234#32] := by decide
theorem test_unknown_class_03_is_equality : -- row D9
    seen (exec (decodeRecord 0x0103FFFF00000007) (mappedState 0 0)) (·.events) = some [0x00000000#32] := by decide
theorem test_unknown_class_7F : -- row D11
    seen (exec (decodeRecord 0x027F000100000000) (mappedState 0 0)) (·.events) = some [0x00000000#32] := by decide

/-! ### The pin mapper (V-MAP) -/

theorem test_mappin_53 :
    seen (exec (.mappin 53) (unmappedState false)) (·.responses) =
      some [⟨.ok, some ⟨5, 9, 1, 7, 10, 0x0020000000000000⟩⟩] := by decide
theorem test_mappin_54 :
    seen (exec (.mappin 54) (mappedState 0 0)) (·.responses) = some [⟨.pinRange, none⟩] := by decide

/-! ### The register controller (V-CFG, V-SC, P4, P5) -/

theorem test_mapreg_maps : -- P4 step 8
    seen (exec (.mapreg 0) (unmappedState true)) (fun t => (t.mapped, t.halted)) = some (true, false) := by decide
theorem test_mapreg_fails : -- P5 step 2
    seen (exec (.mapreg 0) (unmappedState false)) (fun t => (t.mapped, t.halted, t.responses)) =
      some (false, true, [⟨.fatalAcq, none⟩]) := by decide

theorem test_cfgout_or_quirk : -- row C5: field 4 becomes 5
    seen (exec (.cfgout 17) (mappedState 0x00800000 0)) (fun t => (t.fsel[1], t.bus)) =
      some (0x00A00000#32, [.read 1 0x00800000, .write 1 0x00A00000]) := by decide
theorem test_cfgout_53 : -- row C16
    seen (exec (.cfgout 53) (mappedState 0xFFFFF000 0)) (fun t => (t.fsel[5], t.fsel[4])) =
      some (0xFFFFF200#32, 0xFFFFF000#32) := by decide

theorem test_cfgouts_forces_one : -- row C10
    seen (exec (.cfgouts 17) (mappedState 0xFFFFFFFF 0)) (·.fsel[1]) = some 0xFF3FFFFF#32 := by decide
theorem test_cfgouts_field_four : -- row C11
    seen (exec (.cfgouts 17) (mappedState 0x00800000 0)) (·.fsel[1]) = some 0x00200000#32 := by decide

theorem test_setpin_31 : -- V-SC row 2
    seen (exec (.setpin 31) (mappedState 0 0x0000FF01)) (fun t => (t.out, t.bus)) =
      some (0x8000FF01#32, [.write 7 0x80000000]) := by decide
theorem test_setpin_32 : -- V-SC row 8
    seen (exec (.setpin 32) (mappedState 0 0x8000FF00)) (fun t => (t.out, t.responses)) =
      some (0x8000FF00#32, [⟨.pinBank, none⟩]) := by decide

theorem test_clrpin_17 : -- V-SC row 5
    seen (exec (.clrpin 17) (mappedState 0 0x8002FF01)) (fun t => (t.out, t.bus)) =
      some (0x8000FF01#32, [.write 10 0x00020000]) := by decide
theorem test_clrpin_0 : -- V-SC row 7
    seen (exec (.clrpin 0) (mappedState 0 0x8000FF01)) (·.out) = some 0x8000FF00#32 := by decide

/-! ### The step -/

theorem test_reserved_word_answered : -- P4 step 4
    seen (step { unmappedState true with pending := [.command 0x0E40 true] }) (·.responses) =
      some [⟨.illegalCmd, none⟩] := by decide
theorem test_priority_range_over_mapping : -- P4 step 2
    seen (step { unmappedState true with pending := [.command 0x0340 true] }) (·.responses) =
      some [⟨.pinRange, none⟩] := by decide
theorem test_halted_stands_still : -- P5 step 3
    step (haltedState [.command 0x0211 true]) = .fault .rcHalted := rfl
theorem test_halted_decodes : -- P5, last line
    seen (step (haltedState [.command 0x0211 true, .record 0x0302FF8800000000])) (·.events) =
      some [0x0203FF88#32] := by decide
theorem test_every_table_row_steps_from_reset :
    seen (step (State.reset.withFetchWord 64 0x0001000000000000)) (·.events) = some [0x01000000#32] ∧
    seen (step (State.reset.withFetchWord 16 0x0100)) (·.mapped) = some true ∧
    seen (step (State.reset.withFetchWord 16 0x0200)) (·.responses) = some [⟨.notMapped, none⟩] := by decide

/-! ### The host's sequences (43_host_sequences) -/

theorem test_poll_drops_a_short_tail : -- P2
    pollRun true [0, 0, 0, 0, 0x88, 0xFF, 0x02, 0x03, 0x2A, 0, 0] =
      ([.record 0x0302FF8800000000], .streamRead) := by decide
theorem test_blink_commands : -- R108
    hostBlink true 1 = [.command 0x0100 true, .command 0x0211 true, .command 0x0311 true, .command 0x0411 true] := by
  decide

theorem test_console_lines : -- scenarios A and B (R105)
    consoleLine 0x0203FF88 = some "AXIS 3 VALUE -120" ∧ consoleLine 0x01000001 = some "BUTTON 0 VALUE 1" ∧
    consoleLine 0x00000000 = some Config.unknownLine := ⟨by decide, by decide, rfl⟩
theorem test_command_text : commandText (.cfgout 17) = some "CFGOUT 17" := by decide -- R64

/-! ### The hypotheses of each statement are met -/

theorem witness_EncodedInstructionDecodesBack :
    (Instr.evtUnknown04 0 0 0x07 1 255).WellFormed = true ∧ (Instr.cfgouts 255).WellFormed = true := by decide
theorem witness_DecodedWordEncodesBack :
    decode (.record 0x027F000100000000) = .ok (.evtUnknown40 0 1 0x7F 0 2) ∧
    decode (.command 0x05FF) = .ok (.cfgouts 255) := ⟨rfl, rfl⟩
theorem witness_CommandWordsDefinedBelow0600 :
    (0x05FF : CmdWord).toNat < 0x0600 ∧ 0x0600 ≤ (0x0600 : CmdWord).toNat ∧ 0x0600 ≤ (0x0811 : CmdWord).toNat := by
  decide
theorem witness_EveryWordMatchesItsOneRow :
    decode (.command 0x0000) = .ok (.mappin 0) ∧ decode (.command 0x0600) = .error .illegalCommand := ⟨rfl, rfl⟩
theorem witness_StepRunsDecodedInstruction_record :
    (haltedState [.record 0x0302FF8800000000]).pending = [.record 0x0302FF8800000000] ∧
    decode (.record 0x0302FF8800000000) = .ok (.evtAxis 0 0xFF88 0 3) ∧
    decodeTableWord 64 0x0302FF8800000000 = some (.evtAxis 0 0xFF88 0 3) := ⟨rfl, rfl, rfl⟩
theorem witness_StepRunsDecodedInstruction_command :
    (presented [.command 0x0211 true]).halted = false ∧ decode (.command 0x0211) = .ok (.cfgout 17) ∧
    decodeTableWord 16 0x0211 = some (.cfgout 17) := ⟨rfl, rfl, rfl⟩
theorem witness_ReservedWordRejected :
    (presented [.command 0x0800 true]).halted = false ∧ (0x0800 : CmdWord).extractLsb' 11 5 ≠ 0#5 ∧
    (0x0600 : CmdWord).extractLsb' 8 3 = 6#3 ∧ (0x07FF : CmdWord).extractLsb' 8 3 = 7#3 := by decide
theorem witness_NothingPresentedNothingChanges : (mappedState 0 0).pending = [] := rfl
theorem witness_AxisRecordGivesAxisEvent :
    (0x0302FF8800000000 : Record).extractLsb' 48 7 = 0b0000010#7 := by decide
theorem witness_ButtonRecordGivesButtonEvent :
    (0x0081000100000000 : Record).extractLsb' 48 7 = 0b0000001#7 := by decide
theorem witness_OtherRecordGivesUnknownEvent :
    (0x0103FFFF00000007 : Record).extractLsb' 48 7 ≠ 0b0000010#7 ∧
    (0x0103FFFF00000007 : Record).extractLsb' 48 7 ≠ 0b0000001#7 := by decide
theorem witness_ValueAndIndexPassThrough :
    (0x00028000FFFFFFFF : Record).extractLsb' 48 7 = 2#7 ∧ (0xC801123400000000 : Record).extractLsb' 48 7 = 1#7 := by
  decide
theorem witness_TimestampNeverMatters :
    (0x00028000FFFFFFFF : Record).extractLsb' 56 8 = (0x0002800000000000 : Record).extractLsb' 56 8 ∧
    (0x00028000FFFFFFFF : Record).extractLsb' 48 7 = (0x0002800000000000 : Record).extractLsb' 48 7 ∧
    (0x00028000FFFFFFFF : Record).extractLsb' 32 16 = (0x0002800000000000 : Record).extractLsb' 32 16 ∧
    (0x0103FFFF00000007 : Record).extractLsb' 48 7 = (0x0003000000000000 : Record).extractLsb' 48 7 ∧
    (0x0103FFFF00000007 : Record).extractLsb' 48 7 ≠ 2#7 ∧
    (0x0103FFFF00000007 : Record).extractLsb' 48 7 ≠ 1#7 := by decide
theorem witness_DecoderFrame :
    (Instr.evtAxis 0 1 0 2).isRecord = true ∧ ∃ t, exec (.evtAxis 0 1 0 2) (haltedState []) = .next t :=
  ⟨rfl, _, rfl⟩
theorem witness_PinMapperArithmetic : (53 : Pin).toNat ≤ 53 := by decide
theorem witness_PinLocationsAreDistinct :
    (52 : Pin).toNat ≤ 53 ∧ (53 : Pin).toNat ≤ 53 ∧ (52 : Pin) ≠ 53 ∧
    (pinConfig 52).fselIdx = (pinConfig 53).fselIdx := by decide
theorem witness_MappinAnswersPinConfig : (unmappedState false).halted = false ∧ (53 : Pin).toNat ≤ 53 := by decide
theorem witness_MapregMaps :
    (unmappedState true).halted = false ∧ (unmappedState true).mapped = false ∧ (unmappedState true).acqOk = true := by
  decide
theorem witness_FailedMapregHalts :
    (unmappedState false).halted = false ∧ (unmappedState false).mapped = false ∧
    (unmappedState false).acqOk = false := by decide
theorem witness_SecondMapregRejected : (mappedState 0 0).halted = false ∧ (mappedState 0 0).mapped = true := by decide
/-- Valid pins at both ends for the configure statements: pin 0 in register 0, pin 53 in register 5. -/
theorem witness_CfgoutOrsTheOutputCode :
    (mappedState 0 0).halted = false ∧ (mappedState 0 0).mapped = true ∧ (0 : Pin).toNat ≤ 53 ∧
    (0 : Fin 6).val = (0 : Pin).toNat / 10 ∧ (53 : Pin).toNat ≤ 53 ∧ (5 : Fin 6).val = (53 : Pin).toNat / 10 ∧
    (5 : RegIdx).val = (53 : Pin).toNat / 10 ∧ 54 ≤ (54 : Pin).toNat ∧ (unmappedState true).mapped = false ∧
    (mappedState 0 0).fsel[1] = 0x00000000#32 := by decide
theorem witness_CfgoutsReplacesTheField :
    (mappedState 7 0).halted = false ∧ (mappedState 7 0).mapped = true ∧ (53 : Pin).toNat ≤ 53 ∧
    (5 : Fin 6).val = (53 : Pin).toNat / 10 ∧ (5 : RegIdx).val = (53 : Pin).toNat / 10 := by decide
theorem witness_CfgoutLeavesFieldOrOne :
    (mappedState 0x00800000 0).halted = false ∧ (mappedState 0x00800000 0).mapped = true ∧
    (17 : Pin).toNat ≤ 53 ∧ (1 : Fin 6).val = (17 : Pin).toNat / 10 := by decide
theorem witness_CfgoutsLeavesFieldOne :
    (mappedState 0x00E00000 0).halted = false ∧ (mappedState 0x00E00000 0).mapped = true ∧
    (17 : Pin).toNat ≤ 53 ∧ (1 : Fin 6).val = (17 : Pin).toNat / 10 ∧
    (0 : Fin 6) ≠ 1 ∧ (20 : Nat) < (17 : Pin).toNat % 10 * 3 ∧ (17 : Pin).toNat % 10 * 3 + 3 ≤ 24 := by decide
theorem witness_CfgoutChangesOneBitAtMost :
    ∃ t, exec (.cfgout 17) (mappedState 0 0) = .next t ∧
      t.fsel[(1 : Fin 6)].getLsbD 21 ≠ (mappedState 0 0).fsel[(1 : Fin 6)].getLsbD 21 := ⟨_, rfl, by decide⟩
theorem witness_RepeatedConfigureChangesNothing :
    (∃ t u, exec (.cfgout 53) (mappedState 0 0) = .next t ∧ exec (.cfgout 53) t = .next u) ∧
    (∃ t u, exec (.cfgouts 53) (mappedState 0 0) = .next t ∧ exec (.cfgouts 53) t = .next u) ∧
    (∃ t u, exec (.cfgouts 53) (mappedState 0 0) = .next t ∧ exec (.cfgout 53) t = .next u) :=
  ⟨⟨_, _, rfl, rfl⟩, ⟨_, _, rfl, rfl⟩, ⟨_, _, rfl, rfl⟩⟩
theorem witness_SetpinRaisesThePin :
    (mappedState 0 0).halted = false ∧ (mappedState 0 0).mapped = true ∧ (31 : Pin).toNat ≤ 31 := by decide
theorem witness_ClrpinLowersThePin :
    (mappedState 0 0).halted = false ∧ (mappedState 0 0).mapped = true ∧ (31 : Pin).toNat ≤ 31 ∧ 54 ≤ (54 : Pin).toNat ∧
    32 ≤ (32 : Pin).toNat ∧ (32 : Pin).toNat ≤ 53 ∧ (unmappedState true).halted = false ∧
    (unmappedState true).mapped = false := by decide
theorem witness_LevelCommandsMoveOnePin :
    (mappedState 0 0).halted = false ∧ (mappedState 0 0).mapped = true ∧ (0 : Pin).toNat ≤ 31 ∧ (31 : Nat) < 32 := by
  decide
theorem witness_LastWriteWins :
    (mappedState 0 0).halted = false ∧ (mappedState 0 0).mapped = true ∧ (31 : Pin).toNat ≤ 31 ∧ (31 : Nat) < 32 ∧
    ∀ i ∈ [Instr.setpin 31, .clrpin 31, .setpin 0], isLevelCommand i = true := by decide
theorem witness_LevelsAndFunctionSelectAreIndependent :
    (∃ t, exec (.setpin 31) (mappedState 0 0) = .next t) ∧ (∃ t, exec (.clrpin 31) (mappedState 0 0) = .next t) ∧
    (∃ t, exec (.cfgout 53) (mappedState 0 0) = .next t) ∧ (∃ t, exec (.cfgouts 53) (mappedState 0 0) = .next t) :=
  ⟨⟨_, rfl⟩, ⟨_, rfl⟩, ⟨_, rfl⟩, ⟨_, rfl⟩⟩
theorem witness_MappingCommandsFrame :
    (∃ t, exec (.mappin 53) (unmappedState true) = .next t) ∧ ∃ t, exec (.mapreg 0) (unmappedState true) = .next t :=
  ⟨⟨_, rfl⟩, ⟨_, rfl⟩⟩
theorem witness_ConfigureFrame :
    (∃ t, exec (.cfgout 53) (mappedState 0 0) = .next t) ∧ (∃ t, exec (.cfgouts 0) (mappedState 0 0) = .next t) ∧
    (4 : RegIdx).val ≠ (53 : Pin).toNat / 10 ∧ (8 : Nat) < (53 : Pin).toNat % 10 * 3 ∧
    (53 : Pin).toNat % 10 * 3 + 3 ≤ 12 := ⟨⟨_, rfl⟩, ⟨_, rfl⟩, by decide, by decide, by decide⟩
theorem witness_LevelFrame :
    (∃ t, exec (.setpin 31) (mappedState 0 0) = .next t) ∧ (∃ t, exec (.clrpin 31) (mappedState 0 0) = .next t) ∧
    (30 : Nat) ≠ (31 : Pin).toNat := ⟨⟨_, rfl⟩, ⟨_, rfl⟩, by decide⟩
theorem witness_OutOfRangePinRejected :
    (unmappedState true).halted = false ∧ 54 ≤ (54 : Pin).toNat ∧ 54 ≤ (255 : Pin).toNat ∧
    ∃ t a, exec (.mapreg 255) (mappedState 0 0) = .next t ∧ t.responses = (mappedState 0 0).responses ++ [a] :=
  ⟨rfl, by decide, by decide, _, _, rfl, rfl⟩
theorem witness_HighPinRejectedByLevelCommands :
    (mappedState 0 0).halted = false ∧ 32 ≤ (32 : Pin).toNat ∧ (32 : Pin).toNat ≤ 53 ∧ 32 ≤ (53 : Pin).toNat ∧
    (53 : Pin).toNat ≤ 53 ∧ (mappedState 0 0).mapped = true := by decide
theorem witness_UnmappedCommandRejected :
    (unmappedState true).halted = false ∧ (unmappedState true).mapped = false ∧ (53 : Pin).toNat ≤ 53 ∧
    (31 : Pin).toNat ≤ 31 ∧ ∃ t, exec (.mappin 17) (unmappedState true) = .next t :=
  ⟨rfl, rfl, by decide, by decide, _, rfl⟩
theorem witness_StatusFollowsTheCheckOrder :
    (presented [.command 0x0235 true]).halted = false ∧
    (presented [.command 0x0235 true]).pending = .command 0x0235 true :: [] := ⟨rfl, rfl⟩
theorem witness_RejectionLeavesNoTrace :
    (Instr.setpin 32).isRecord = false ∧
    (∃ t, exec (.setpin 32) (mappedState 0 0) = .next t ∧ t.responses = [] ++ [⟨.pinBank, none⟩]) ∧
    (∃ t, exec (.mapreg 0) (unmappedState false) = .next t ∧ t.responses = [] ++ [⟨.fatalAcq, none⟩]) :=
  ⟨rfl, ⟨_, rfl, rfl⟩, ⟨_, rfl, rfl⟩⟩
theorem witness_HaltedControllerHasNoStep :
    (haltedState [.command 0x0011 true]).halted = true ∧ (haltedState [.command 0x0011 true]).pending ≠ [] ∧
    ∀ i ∈ (haltedState [.command 0x0011 true]).pending, ∃ c ok, i = Input.command c ok := by
  refine ⟨rfl, by decide, ?_⟩
  intro i hi
  simp only [haltedState, List.mem_singleton] at hi
  exact ⟨_, _, hi⟩
theorem witness_HaltedControllerLetsDecoderGoOn :
    (haltedState [.command 0x0211 true, .record 0]).halted = true ∧
    (haltedState [.command 0x0211 true, .record 0]).pending = [.command 0x0211 true] ++ .record 0 :: [] ∧
    ∀ i ∈ [Input.command 0x0211 true], ∃ c ok, i = Input.command c ok := by
  refine ⟨rfl, rfl, ?_⟩
  intro i hi
  exact ⟨_, _, List.mem_singleton.1 hi⟩
theorem witness_DecodeAndCommandCommute :
    (Instr.evtAxis 0 1 0 2).isRecord = true ∧ (Instr.cfgout 17).isRecord = false := by decide
/-- A safe state that has done something: a command performed, an event given. -/
theorem witness_StepKeepsSafe :
    ∃ s t, s.Safe ∧ s.pending ≠ [] ∧ step s = .next t := by
  refine ⟨{ presented [.command 0x0311 true] with
    bus := [.read 1 0, .write 1 0x00200000], events := [0x0203FF88], responses := [⟨.ok, none⟩] }, _, ?_, by decide, rfl⟩
  constructor
  · decide
  · simp [BusEventAllowed]
  · intro _; rfl
  · simp [EventWordAllowed]
  · simp [ResponseAllowed]
  · decide
theorem witness_FlagsClearedByResetOnly :
    (∃ t, step (presented [.command 0x0311 true]) = .next t ∧ (presented [.command 0x0311 true]).mapped = true ∧
      ∀ s', fetch (presented [.command 0x0311 true]) ≠ .reset s') ∧
    (∃ t, step { unmappedState false with pending := [.command 0x0100 true] } = .next t ∧ t.mapped = true) ∧
    (∃ t, step { unmappedState false with pending := [.command 0x0100 false] } = .next t ∧ t.halted = true) := by
  refine ⟨⟨_, rfl, rfl, ?_⟩, ⟨_, rfl, rfl⟩, ⟨_, rfl, rfl⟩⟩
  intro s' h
  cases h
theorem witness_ResetKeepsThePeripheral :
    (haltedState [.command 0x0211 true, .reset]).halted = true ∧
    (haltedState [.command 0x0211 true, .reset]).pending = [.command 0x0211 true] ++ .reset :: [] ∧
    (presented [.reset]).pending = [] ++ .reset :: [] := ⟨rfl, rfl, rfl⟩
theorem witness_BusHistoryExplainsRegisters :
    (presented [.command 0x0211 true]).ExplainedFrom (#v[0, 0, 0, 0, 0, 0], 0) ∧
    (∃ t, step (presented [.command 0x0211 true]) = .next t) ∧
    (∀ s', fetch (presented [.command 0x0211 true]) ≠ .reset s') ∧ ∃ s', fetch (presented [.reset]) = .reset s' :=
  ⟨rfl, ⟨_, rfl⟩, (by intro s' h; cases h), ⟨_, rfl⟩⟩
theorem witness_TransactionsOfEachOperation :
    (∃ t, exec (.cfgout 53) (mappedState 0 0) = .next t ∧ t.responses = [] ++ [⟨.ok, none⟩]) ∧
    (∃ t, exec (.setpin 31) (mappedState 0 0) = .next t ∧ t.responses = [] ++ [⟨.ok, none⟩]) ∧
    (∃ t, exec (.clrpin 32) (mappedState 0 0) = .next t ∧ t.responses = [] ++ [⟨.pinBank, none⟩]) ∧
    (∃ t, exec (.evtAxis 0 0 0 0) (mappedState 0 0) = .next t ∧ t.responses = (mappedState 0 0).responses) :=
  ⟨⟨_, rfl, rfl⟩, ⟨_, rfl, rfl⟩, ⟨_, rfl, rfl⟩, ⟨_, rfl, rfl⟩⟩
theorem witness_RegisterReadAfterWrite : (4 : Fin 6) ≠ 5 ∧ (31 : Nat) < 32 := by decide

end Sys2Proof.Tests
end

section
/-! SUPPORT. Sequences of level commands (20_memory R43): what one of them does, then what a list of them leaves
in the latch. -/

namespace Sys2Proof.Machine

/-! ### One level command -/

/-- A SETPIN of a bank 0 pin on a mapped, running RC passes every check (R89, R94). -/
theorem exec_setpin_performs {s : State} {pin : Pin} (hrun : s.halted = false) (hmap : s.mapped = true)
    (hpin : pin.toNat ≤ 31) :
    exec (.setpin pin) s = .next ((busWrite .set (levelMask pin) s).respond .ok none) :=
  runCommand_performs _ _ hrun <| (failedCheck_eq_none_iff ..).2
    ⟨fun _ => by omega, fun _ => hpin, fun _ => hmap, nofun⟩

/-- A CLRPIN of a bank 0 pin on a mapped, running RC passes every check (R89, R95). -/
theorem exec_clrpin_performs {s : State} {pin : Pin} (hrun : s.halted = false) (hmap : s.mapped = true)
    (hpin : pin.toNat ≤ 31) :
    exec (.clrpin pin) s = .next ((busWrite .clr (levelMask pin) s).respond .ok none) :=
  runCommand_performs _ _ hrun <| (failedCheck_eq_none_iff ..).2
    ⟨fun _ => by omega, fun _ => hpin, fun _ => hmap, nofun⟩

/-- Writing the pin's mask to SET gives the pin the level SETPIN names (R22). -/
theorem getLsbD_or_levelMask {pin : Pin} (level : Word) (p : Nat) (hpin : pin.toNat ≤ 31) :
    (level ||| levelMask pin).getLsbD p = (levelNamed p (.setpin pin)).getD (level.getLsbD p) := by
  rw [BitVec.getLsbD_or, levelMask_getLsbD hpin, levelNamed]
  by_cases h : p = pin.toNat
  · simp [h]
  · simp [h, Ne.symm h]

/-- Writing the pin's mask to CLR gives the pin the level CLRPIN names (R23). -/
theorem getLsbD_and_not_levelMask {pin : Pin} {p : Nat} (level : Word) (hp : p < 32)
    (hpin : pin.toNat ≤ 31) :
    (level &&& ~~~levelMask pin).getLsbD p = (levelNamed p (.clrpin pin)).getD (level.getLsbD p) := by
  rw [BitVec.getLsbD_and, BitVec.getLsbD_not, levelMask_getLsbD hpin, levelNamed]
  by_cases h : p = pin.toNat
  · simp [h]
  · simp [h, Ne.symm h, hp]

/-- RC stays mapped and running, answers OK, and each pin has the level the command names for it, or the one
it had. -/
theorem exec_levelCommand {i : Instr} {s : State} (hi : isLevelCommand i = true) (hrun : s.halted = false)
    (hmap : s.mapped = true) :
    ∃ t, exec i s = .next t ∧ t.halted = false ∧ t.mapped = true ∧
      t.responses = s.responses ++ [⟨.ok, none⟩] ∧
      ∀ p, p < 32 → t.out.getLsbD p = (levelNamed p i).getD (s.out.getLsbD p) := by
  cases i with
  | setpin pin =>
    have hpin : pin.toNat ≤ 31 := of_decide_eq_true hi
    exact ⟨_, exec_setpin_performs hrun hmap hpin, by simpa, by simpa, by simp,
      fun p _ => getLsbD_or_levelMask s.out p hpin⟩
  | clrpin pin =>
    have hpin : pin.toNat ≤ 31 := of_decide_eq_true hi
    exact ⟨_, exec_clrpin_performs hrun hmap hpin, by simpa, by simpa, by simp,
      fun p hp => getLsbD_and_not_levelMask s.out hp hpin⟩
  | _ => cases hi

/-! ### A list of them -/

theorem execAll_cons_of_next {i : Instr} {s t : State} (is : List Instr) (h : exec i s = .next t) :
    execAll (i :: is) s = execAll is t := by
  rw [execAll, h]

/-- The first operation decides only where none of the later ones names the pin. -/
theorem lastLevel_cons_getD (p : Nat) (i : Instr) (is : List Instr) (b : Bool) :
    (lastLevel p (i :: is)).getD b = (lastLevel p is).getD ((levelNamed p i).getD b) := by
  rw [lastLevel]
  cases lastLevel p is <;> rfl

/-- Level commands run to their end, each answered OK, and each pin has the level last named for it. -/
theorem execAll_levelCommands (is : List Instr) (s : State) (hrun : s.halted = false)
    (hmap : s.mapped = true) (his : ∀ i ∈ is, isLevelCommand i = true) :
    ∃ t, execAll is s = .next t ∧
      (∃ answers, t.responses = s.responses ++ answers ∧ answers.length = is.length ∧
        ∀ a ∈ answers, a.status = .ok) ∧
      ∀ p, p < 32 → t.out.getLsbD p = (lastLevel p is).getD (s.out.getLsbD p) := by
  induction is generalizing s with
  | nil => exact ⟨s, rfl, ⟨[], by simp⟩, fun _ _ => rfl⟩
  | cons i is ih =>
    obtain ⟨hi, his⟩ := List.forall_mem_cons.1 his
    obtain ⟨u, hu, hurun, humap, huresp, huout⟩ := exec_levelCommand hi hrun hmap
    obtain ⟨t, ht, ⟨answers, hresp, hlen, hok⟩, hout⟩ := ih u hurun humap his
    refine ⟨t, by rw [execAll_cons_of_next is hu, ht], ⟨⟨.ok, none⟩ :: answers, ?_, ?_, ?_⟩, ?_⟩
    · rw [hresp, huresp, List.append_assoc, List.singleton_append]
    · rw [List.length_cons, List.length_cons, hlen]
    · exact List.forall_mem_cons.2 ⟨rfl, hok⟩
    · intro p hp
      rw [hout p hp, huout p hp, lastLevel_cons_getD]

/-- Settles O33, by induction on the commands: each leaves RC mapped and running and names one pin's level. -/
theorem lastWriteWins : Obligations.LastWriteWins := by
  refine ⟨execAll_levelCommands, fun s pin hrun hmap hpin => ⟨?_, ?_⟩⟩
  · obtain ⟨t, ht, -, hout⟩ := execAll_levelCommands [.setpin pin, .clrpin pin] s hrun hmap
      (by simp [isLevelCommand, hpin])
    exact ⟨t, ht, by simp [hout pin.toNat (by omega), lastLevel, levelNamed]⟩
  · obtain ⟨t, ht, -, hout⟩ := execAll_levelCommands [.clrpin pin, .setpin pin] s hrun hmap
      (by simp [isLevelCommand, hpin])
    exact ⟨t, ht, by simp [hout pin.toNat (by omega), lastLevel, levelNamed]⟩

end Sys2Proof.Machine
end

section
/-! SUPPORT. The transactions of each operation (20_memory R37): a record row and a command not answered OK make
none, so only what a command does once its checks pass is left to say. -/

namespace Sys2Proof.Machine

/-- From `s` to `t` some transactions are added to the history: none without an answer OK, and with one those
that `whenOk` describes. -/
def AddsTransactions (whenOk : List BusEvent → Prop) (s t : State) : Prop :=
  ∃ new, t.bus = s.bus ++ new ∧
    ((∃ a, t.responses = s.responses ++ [a] ∧ a.status ≠ .ok) → new = []) ∧
    (t.responses = s.responses → new = []) ∧
    ((∃ cfg, t.responses = s.responses ++ [⟨.ok, cfg⟩]) → whenOk new)

/-- A read and then a write of the pin's function-select register: the word it holds before, in `s`, and the
one it holds after, in `t` (R91, R97). -/
def ReadsThenWrites (pin : Pin) (s t : State) (new : List BusEvent) : Prop :=
  ∃ (j : RegIdx) (old v : Word), j.val = pin.toNat / 10 ∧ s.peek j = old ∧ t.peek j = v ∧
    new = [.read j old, .write j v]

/-! ### The three ways to answer -/

theorem addsTransactions_of_ok {whenOk : List BusEvent → Prop} {s t : State} {new : List BusEvent}
    (cfg : Option PinConfig) (hbus : t.bus = s.bus ++ new) (hresp : t.responses = s.responses ++ [⟨.ok, cfg⟩])
    (hok : whenOk new) : AddsTransactions whenOk s t := by
  refine ⟨new, hbus, ?_, by simp [hresp], fun _ => hok⟩
  rintro ⟨a, ha, hne⟩
  obtain rfl : ⟨.ok, cfg⟩ = a := by simpa using hresp.symm.trans ha
  exact absurd rfl hne

theorem addsTransactions_of_rejected {whenOk : List BusEvent → Prop} {s t : State} {st : Status}
    (hbus : t.bus = s.bus) (hresp : t.responses = s.responses ++ [⟨st, none⟩]) (hst : st ≠ .ok) :
    AddsTransactions whenOk s t :=
  ⟨[], by simp [hbus], fun _ => rfl, fun _ => rfl, by simp [hresp, hst]⟩

theorem addsTransactions_of_record {whenOk : List BusEvent → Prop} {i : Instr} {s t : State}
    (hi : i.isRecord = true) (h : exec i s = .next t) : AddsTransactions whenOk s t := by
  obtain ⟨e, he⟩ := exec_record hi
  obtain rfl : s.emit e = t := by simpa [he] using h
  exact ⟨[], by simp, fun _ => rfl, fun _ => rfl, by simp⟩

/-- Of a command only what it performs once its checks pass matters: a failed check leaves the bus alone. -/
theorem addsTransactions_of_runCommand {whenOk : List BusEvent → Prop} {op : RcOp} {pin : Pin}
    {perform : State → State} {cfg : Option PinConfig} {s t : State}
    (h : runCommand op pin perform cfg s = .next t) (hresp : (perform s).responses = s.responses)
    (hok : failedCheck op pin s = none → t = (perform s).respond .ok cfg →
      ∃ new, (perform s).bus = s.bus ++ new ∧ whenOk new) : AddsTransactions whenOk s t := by
  obtain ⟨-, ⟨hc, ht⟩ | ⟨-, rfl⟩ | ⟨st, -, hc, rfl⟩⟩ := runCommand_cases h
  · obtain ⟨new, hbus, hnew⟩ := hok hc ht
    exact addsTransactions_of_ok cfg (by simp [ht, hbus]) (by simp [ht, hresp]) hnew
  · exact addsTransactions_of_rejected rfl rfl nofun
  · exact addsTransactions_of_rejected rfl rfl (failedCheck_ne hc).1

/-! ### The operations -/

/-- A command that performs no transaction makes none: MAPPIN and MAPREG. -/
theorem addsTransactions_of_bus_unchanged {op : RcOp} {pin : Pin} {perform : State → State}
    {cfg : Option PinConfig} {s t : State} (h : runCommand op pin perform cfg s = .next t)
    (hresp : (perform s).responses = s.responses) (hbus : (perform s).bus = s.bus) :
    AddsTransactions (· = []) s t :=
  addsTransactions_of_runCommand h hresp fun _ _ => ⟨[], by rw [hbus, List.append_nil], rfl⟩

/-- A configure operation answered OK reads and then writes its pin's register, whatever it makes of the word. -/
theorem addsTransactions_of_configure {op : RcOp} {pin : Pin} {change : Word → Word} {s t : State}
    (hop : takesPin op = true) (h : runCommand op pin (readModifyWrite pin change) none s = .next t) :
    AddsTransactions (ReadsThenWrites pin s t) s t := by
  refine addsTransactions_of_runCommand h (by simp [readModifyWrite]) fun hc ht => ?_
  obtain ⟨hrange, -⟩ := (failedCheck_eq_none_iff ..).1 hc
  have hk : pin.toNat / 10 < 6 := by have := hrange hop; omega
  have hrmw := readModifyWrite_eq (k := ⟨pin.toNat / 10, hk⟩) change s rfl
  refine ⟨_, congrArg State.bus hrmw, _, _, _, rfl, peek_fsel hk, ?_, rfl⟩
  rw [ht, hrmw, peek_fsel hk]
  simp

/-- A level command answered OK makes the one write of its pin's bit. -/
theorem addsTransactions_of_level {op : RcOp} {pin : Pin} {r : Reg} {s t : State} (hop : usesBank op = true)
    (h : runCommand op pin (busWrite r (levelMask pin)) none s = .next t) :
    AddsTransactions (· = [.write (regIndex r) (1#32 <<< pin.toNat)]) s t := by
  refine addsTransactions_of_runCommand h (busWrite_responses ..) fun hc _ => ⟨_, ?_, rfl⟩
  obtain ⟨-, hbank, -⟩ := (failedCheck_eq_none_iff ..).1 hc
  rw [busWrite_bus, levelMask_eq (hbank hop)]

/-- Settles O52: each operation by the way it uses the bus. -/
theorem transactionsOfEachOperation : Obligations.TransactionsOfEachOperation := by
  intro i s t h
  cases i with
  | mappin pin => rw [exec_mappin] at h; exact addsTransactions_of_bus_unchanged h rfl rfl
  | mapreg ignored => rw [exec_mapreg] at h; exact addsTransactions_of_bus_unchanged h rfl rfl
  | cfgout pin => rw [exec_cfgout] at h; exact addsTransactions_of_configure rfl h
  | setpin pin => rw [exec_setpin] at h; exact addsTransactions_of_level rfl h
  | clrpin pin => rw [exec_clrpin] at h; exact addsTransactions_of_level rfl h
  | cfgouts pin => rw [exec_cfgouts] at h; exact addsTransactions_of_configure rfl h
  | _ => exact addsTransactions_of_record (whenOk := (· = [])) rfl h

end Sys2Proof.Machine
end

section
/-! SUPPORT. The event decoder (40_event_decoder R71 to R77): the event a record stands for, said once on its
class code, number and value; the step on a record emits that event's word. -/

namespace Sys2Proof.Machine

/-! ### The event of a record -/

/-- The event of a record, in the order of R73 to R75. Neither the timestamp nor the initialization bit is read. -/
def eventOfRecord (r : Record) : DecodedEvent :=
  if recClass r = Config.classAxis then .axis (recNumber r) (recValue r)
  else if recClass r = Config.classButton then .button (recNumber r) (recValue r)
  else .unknown

theorem eventOfRecord_axis {r : Record} (h : recClass r = Config.classAxis) :
    eventOfRecord r = .axis (recNumber r) (recValue r) :=
  if_pos h

theorem eventOfRecord_button {r : Record} (h : recClass r = Config.classButton) :
    eventOfRecord r = .button (recNumber r) (recValue r) := by
  have ha : recClass r ≠ Config.classAxis := by rw [h]; decide
  rw [eventOfRecord, if_neg ha, if_pos h]

theorem eventOfRecord_unknown {r : Record} (ha : recClass r ≠ Config.classAxis)
    (hb : recClass r ≠ Config.classButton) : eventOfRecord r = .unknown := by
  rw [eventOfRecord, if_neg ha, if_neg hb]

/-- The nine record rows together are the three cases of R73 to R75. -/
theorem exec_decodeRecord (s : State) (r : Record) :
    exec (decodeRecord r) s = .next (s.emit (eventWord (eventOfRecord r))) := by
  by_cases ha : recClass r = Config.classAxis
  · rw [decodeRecord_axis ha, eventOfRecord_axis ha, exec_evtAxis]
  by_cases hb : recClass r = Config.classButton
  · rw [decodeRecord_button hb, eventOfRecord_button hb, exec_evtButton]
  rw [eventOfRecord_unknown ha hb]
  rcases class_cases (recClass r) with h | h | h | h | h | h | h | h | h
  · exact absurd h ha
  · exact absurd h hb
  · rw [decodeRecord_unknown00 h, exec_evtUnknown00]
  · rw [decodeRecord_unknown03 h, exec_evtUnknown03]
  · rw [decodeRecord_unknown04 h, exec_evtUnknown04]
  · rw [decodeRecord_unknown08 h, exec_evtUnknown08]
  · rw [decodeRecord_unknown10 h, exec_evtUnknown10]
  · rw [decodeRecord_unknown20 h, exec_evtUnknown20]
  · rw [decodeRecord_unknown40 h, exec_evtUnknown40]

/-! ### The class code within rawType (R52) -/

/-- The class code is the rawType byte without its top bit. -/
theorem class_eq_rawType (r : Record) : r.extractLsb' 48 7 = (r.extractLsb' 48 8).setWidth 7 :=
  (BitVec.setWidth_extractLsb'_of_le (by decide)).symm

theorem rawType_axis_iff : ∀ t : BitVec 8, t.setWidth 7 = 0b0000010#7 ↔ t = 0x02#8 ∨ t = 0x82#8 := by
  decide

theorem rawType_button_iff : ∀ t : BitVec 8, t.setWidth 7 = 0b0000001#7 ↔ t = 0x01#8 ∨ t = 0x81#8 := by
  decide

theorem rawType_other_iff : ∀ t : BitVec 8,
    (t.setWidth 7 ≠ 0b0000010#7 ∧ t.setWidth 7 ≠ 0b0000001#7) ↔
      t = 0x00#8 ∨ t = 0x80#8 ∨ (0x03#8 ≤ t ∧ t ≤ 0x7F#8) ∨ (0x83#8 ≤ t ∧ t ≤ 0xFF#8) := by
  decide

/-! ### The fields of an event word (R54) -/

theorem eventWord_value {ev : DecodedEvent} {index : BitVec 8} {value : BitVec 16}
    (h : ev = .axis index value ∨ ev = .button index value) : (eventWord ev).extractLsb' 0 16 = value := by
  rcases h with rfl | rfl <;> exact BitVec.extractLsb'_append_eq_right

theorem eventWord_index {ev : DecodedEvent} {index : BitVec 8} {value : BitVec 16}
    (h : ev = .axis index value ∨ ev = .button index value) : (eventWord ev).extractLsb' 16 8 = index := by
  rcases h with rfl | rfl <;>
    exact (BitVec.extractLsb'_append_eq_of_le (by decide)).trans BitVec.extractLsb'_append_eq_right

/-! ### The initialization bit (R77) -/

/-- A field that does not hold bit 55 is the same in a record with that bit flipped. -/
theorem field_flipInit (r : Record) {start len : Nat}
    (h : (0x0080000000000000 : Record).extractLsb' start len = 0) :
    (r ^^^ 0x0080000000000000).extractLsb' start len = r.extractLsb' start len := by
  rw [BitVec.extractLsb'_xor, h]
  exact BitVec.xor_zero

theorem eventOfRecord_flipInit (r : Record) :
    eventOfRecord (r ^^^ 0x0080000000000000) = eventOfRecord r := by
  have hclass : recClass (r ^^^ 0x0080000000000000) = recClass r := field_flipInit r (by decide)
  have hnumber : recNumber (r ^^^ 0x0080000000000000) = recNumber r := field_flipInit r (by decide)
  have hvalue : recValue (r ^^^ 0x0080000000000000) = recValue r := field_flipInit r (by decide)
  simp only [eventOfRecord, hclass, hnumber, hvalue]

/-! ### The statements -/

/-- Settles O12: every other class code is the third case of the event of a record. -/
theorem otherRecordGivesUnknownEvent : Obligations.OtherRecordGivesUnknownEvent := by
  refine ⟨fun s r ha hb => ?_, fun r => ?_, fun s => exec_decodeRecord s _⟩
  · rw [exec_decodeRecord, eventOfRecord_unknown ha hb]
    rfl
  · rw [class_eq_rawType]
    exact rawType_other_iff _

/-- Settles O13: the event of a record does not read the bit. -/
theorem initializationBitNeverMatters : Obligations.InitializationBitNeverMatters := by
  intro s r
  rw [exec_decodeRecord, exec_decodeRecord, eventOfRecord_flipInit]

/-- Settles O10: class code 2 is the first case of the event of a record. -/
theorem axisRecordGivesAxisEvent : Obligations.AxisRecordGivesAxisEvent := by
  refine ⟨fun s r h => ?_, fun r => ?_, fun s => exec_decodeRecord s _⟩
  · rw [exec_decodeRecord, eventOfRecord_axis h]
    rfl
  · rw [class_eq_rawType]
    exact rawType_axis_iff _

/-- Settles O11: class code 1 is the second case of the event of a record. -/
theorem buttonRecordGivesButtonEvent : Obligations.ButtonRecordGivesButtonEvent := by
  refine ⟨fun s r h => ?_, fun r => ?_, fun s => exec_decodeRecord s _⟩
  · rw [exec_decodeRecord, eventOfRecord_button h]
    rfl
  · rw [class_eq_rawType]
    exact rawType_button_iff _

/-- Settles O14: the two tagged events hold the record's number and value in the same bits of their word. -/
theorem valueAndIndexPassThrough : Obligations.ValueAndIndexPassThrough := by
  intro s r h
  have hev : eventOfRecord r = .axis (recNumber r) (recValue r) ∨
      eventOfRecord r = .button (recNumber r) (recValue r) :=
    h.imp eventOfRecord_axis eventOfRecord_button
  have hvalue := eventWord_value hev
  exact ⟨_, exec_decodeRecord s r, hvalue, eventWord_index hev, congrArg BitVec.toInt hvalue⟩

end Sys2Proof.Machine
end

section
/-! SUPPORT. Function select and levels are independent (42_register_controller R98): a part of the state that
neither the checks of R89 nor the operation reads can be replaced before a command as well as after it. -/

namespace Sys2Proof.Machine

/-! ### Replacing what a command does not read -/

/-- The state with other words in FSEL0 to FSEL5. -/
def State.withFsel (regs : Vector Word 6) (s : State) : State := { s with fsel := regs }

/-- The state with other levels in OUT. -/
def State.withOut (level : Word) (s : State) : State := { s with out := level }

/-- A change of the state that the front end of RC does not see: the checks find the same, and it commutes with
the ways to answer. -/
structure UnseenByFrontEnd (change : State → State) : Prop where
  halted : ∀ s, (change s).halted = s.halted
  failedCheck : ∀ op pin s, failedCheck op pin (change s) = failedCheck op pin s
  respond : ∀ s st cfg, (change s).respond st cfg = change (s.respond st cfg)
  setHalted : ∀ s, (change s).setHalted = change s.setHalted

theorem unseenByFrontEnd_withFsel (regs : Vector Word 6) : UnseenByFrontEnd (State.withFsel regs) :=
  ⟨fun _ => rfl, fun _ _ _ => rfl, fun _ _ _ => rfl, fun _ => rfl⟩

theorem unseenByFrontEnd_withOut (level : Word) : UnseenByFrontEnd (State.withOut level) :=
  ⟨fun _ => rfl, fun _ _ _ => rfl, fun _ _ _ => rfl, fun _ => rfl⟩

/-- A command commutes with an unseen change that its operation commutes with, however it is answered. -/
theorem runCommand_change {change perform : State → State} {op : RcOp} {pin : Pin} {cfg : Option PinConfig}
    {s t : State} (hchange : UnseenByFrontEnd change) (hperform : perform (change s) = change (perform s))
    (h : runCommand op pin perform cfg s = .next t) :
    runCommand op pin perform cfg (change s) = .next (change t) := by
  obtain ⟨hrun, hcases⟩ := runCommand_cases h
  have hrun : (change s).halted = false := (hchange.halted s).trans hrun
  have hcheck := hchange.failedCheck op pin s
  rcases hcases with ⟨hc, rfl⟩ | ⟨hc, rfl⟩ | ⟨st, hst, hc, rfl⟩
  · rw [runCommand_performs _ _ hrun (hcheck.trans hc), hperform, hchange.respond]
  · rw [runCommand_fatal _ _ hrun (hcheck.trans hc), hchange.setHalted, hchange.respond]
  · rw [runCommand_rejects _ _ hrun (hcheck.trans hc) hst, hchange.respond]

/-! ### The two kinds of command -/

/-- SETPIN's transaction reads no function-select register. -/
theorem busWrite_set_withFsel (regs : Vector Word 6) (v : Word) (s : State) :
    busWrite .set v (s.withFsel regs) = (busWrite .set v s).withFsel regs := rfl

/-- CLRPIN's transaction reads no function-select register. -/
theorem busWrite_clr_withFsel (regs : Vector Word 6) (v : Word) (s : State) :
    busWrite .clr v (s.withFsel regs) = (busWrite .clr v s).withFsel regs := rfl

/-- The read and the write of a configure operation go to a function-select register, never to OUT. -/
theorem readModifyWrite_withOut (level : Word) (pin : Pin) (change : Word → Word) (s : State) :
    readModifyWrite pin change (s.withOut level) = (readModifyWrite pin change s).withOut level := rfl

/-- A configure operation does not read OUT, and so does not touch it: replacing OUT by what it already holds
changes nothing before the command, hence nothing after it. -/
theorem configure_independent_of_out {op : RcOp} {pin : Pin} {change : Word → Word} {s t : State}
    (level : Word) (h : runCommand op pin (readModifyWrite pin change) none s = .next t) :
    t.out = s.out ∧
      runCommand op pin (readModifyWrite pin change) none (s.withOut level) = .next (t.withOut level) := by
  have hany (level : Word) := runCommand_change (unseenByFrontEnd_withOut level)
    (readModifyWrite_withOut level pin change s) h
  have hsame : t = t.withOut s.out := Host.Outcome.next.inj (h.symm.trans (hany s.out))
  have hout : t.out = (t.withOut s.out).out := congrArg State.out hsame
  exact ⟨hout, hany level⟩

/-- Settles O34: each command commutes with replacing the register it does not read, and a level command of a
bank 0 pin passes every check, none of which reads function select. -/
theorem levelsAndFunctionSelectAreIndependent : Obligations.LevelsAndFunctionSelectAreIndependent := by
  refine ⟨fun s t pin regs => ⟨fun h => ?_, fun h => ?_⟩, fun s t pin level => ⟨fun h => ?_, fun h => ?_⟩,
    fun s pin hrun hmap hpin => ⟨?_, ?_⟩⟩
  · exact runCommand_change (unseenByFrontEnd_withFsel regs) (busWrite_set_withFsel regs _ s) h
  · exact runCommand_change (unseenByFrontEnd_withFsel regs) (busWrite_clr_withFsel regs _ s) h
  · exact configure_independent_of_out level h
  · exact configure_independent_of_out level h
  · refine ⟨_, exec_setpin_performs hrun hmap hpin, ?_, rfl, ?_, rfl⟩
    · exact (getLsbD_or_levelMask s.out _ hpin).trans (by simp [levelNamed])
    · simp [levelMask_eq hpin, regIndex, Config.setIdx]
  · refine ⟨_, exec_clrpin_performs hrun hmap hpin, ?_, rfl, ?_, rfl⟩
    · exact (getLsbD_and_not_levelMask s.out (by omega) hpin).trans (by simp [levelNamed])
    · simp [levelMask_eq hpin, regIndex, Config.clrIdx]

end Sys2Proof.Machine
end

section
/-! SUPPORT. The status PIN_RANGE (60_exceptions R116): when its check fails, and that a command is rejected
with the status of its failed check and no other. -/

namespace Sys2Proof.Machine

/-! ### The range check -/

/-- The range check comes first in R89, so neither the bank nor the mapping matters to it. -/
theorem failedCheck_eq_pinRange_iff (op : RcOp) (pin : Pin) (s : State) :
    failedCheck op pin s = some .pinRange ↔ takesPin op = true ∧ 54 ≤ pin.toNat := by
  by_cases hrange : takesPin op = true ∧ pin.toNat > Config.pinMax
  · exact iff_of_true (if_pos hrange) hrange
  · refine iff_of_false ?_ hrange
    rw [failedCheck, if_neg hrange]
    split_ifs <;> nofun

theorem runCommand_rejects_outOfRange {op : RcOp} {pin : Pin} {s : State} (perform : State → State)
    (cfg : Option PinConfig) (hop : takesPin op = true) (hrun : s.halted = false) (hpin : 54 ≤ pin.toNat) :
    runCommand op pin perform cfg s = .next (s.respond .pinRange none) :=
  runCommand_rejects perform cfg hrun ((failedCheck_eq_pinRange_iff op pin s).2 ⟨hop, hpin⟩) nofun

/-! ### The answer names the check -/

/-- A status other than OK is answered for no other reason than that its check failed. -/
theorem failedCheck_of_answer {op : RcOp} {pin : Pin} {perform : State → State} {cfg : Option PinConfig}
    {s t : State} {a : Response} (h : runCommand op pin perform cfg s = .next t)
    (hperform : (perform s).responses = s.responses) (ha : t.responses = s.responses ++ [a])
    (hok : a.status ≠ .ok) : failedCheck op pin s = some a.status := by
  obtain ⟨-, ⟨-, rfl⟩ | ⟨hc, rfl⟩ | ⟨st, -, hc, rfl⟩⟩ := runCommand_cases h
  · obtain rfl : ⟨.ok, cfg⟩ = a := by simpa [hperform] using ha
    exact absurd rfl hok
  · obtain rfl : ⟨.fatalAcq, none⟩ = a := by simpa using ha
    exact hc
  · obtain rfl : ⟨st, none⟩ = a := by simpa using ha
    exact hc

/-- Settles O38: the five operations that take a pin fail the range check, which MAPREG does not have. -/
theorem outOfRangePinRejected : Obligations.OutOfRangePinRejected := by
  refine ⟨fun s pin hrun hpin => ?_, fun s t ignored a h ha hstatus => ?_⟩
  · rw [exec_mappin, exec_cfgout, exec_setpin, exec_clrpin, exec_cfgouts]
    refine ⟨?_, ?_, ?_, ?_, ?_⟩ <;> exact runCommand_rejects_outOfRange _ _ rfl hrun hpin
  · have hcheck : failedCheck .mapreg ignored s = some .pinRange :=
      hstatus ▸ failedCheck_of_answer h rfl ha (by simp [hstatus])
    obtain ⟨htakes, -⟩ := (failedCheck_eq_pinRange_iff ..).1 hcheck
    cases htakes

end Sys2Proof.Machine
end

section
/-! SUPPORT. The six commands as one family over `RcOp`, so that a fact of every command is proved once: the
instruction, its operation code, what it performs once its checks pass, and the PinConfig it then answers. -/

namespace Sys2Proof.Machine

/-- The command of an operation and the low byte of its word (R57). -/
def commandInstr : RcOp → Pin → Instr
  | .mappin, pin => .mappin pin
  | .mapreg, pin => .mapreg pin
  | .cfgout, pin => .cfgout pin
  | .setpin, pin => .setpin pin
  | .clrpin, pin => .clrpin pin
  | .cfgouts, pin => .cfgouts pin

/-- The operation code `cmd[10:8]` (R57). -/
def opCode : RcOp → BitVec 3
  | .mappin => 0
  | .mapreg => 1
  | .cfgout => 2
  | .setpin => 3
  | .clrpin => 4
  | .cfgouts => 5

/-- What the command does to the state once its checks pass, its answer apart (R81, R90 to R97). -/
def performed : RcOp → Pin → State → State
  | .mappin, _ => fun s => s
  | .mapreg, _ => State.setMapped
  | .cfgout, pin => readModifyWrite pin (orOutputCode pin)
  | .setpin, pin => busWrite .set (levelMask pin)
  | .clrpin, pin => busWrite .clr (levelMask pin)
  | .cfgouts, pin => readModifyWrite pin (replaceFieldByOutput pin)

/-- The PinConfig of an OK answer: MAPPIN's alone (R60). -/
def answeredConfig : RcOp → Pin → Option PinConfig
  | .mappin, pin => some (pinConfig pin)
  | _, _ => none

theorem exec_commandInstr (op : RcOp) (pin : Pin) (s : State) :
    exec (commandInstr op pin) s = runCommand op pin (performed op pin) (answeredConfig op pin) s := by
  cases op <;> rfl

/-- The instructions that are no records are the six commands. -/
theorem exists_commandInstr {i : Instr} (h : i.isRecord = false) : ∃ op pin, i = commandInstr op pin := by
  cases i with
  | mappin pin => exact ⟨.mappin, pin, rfl⟩
  | mapreg pin => exact ⟨.mapreg, pin, rfl⟩
  | cfgout pin => exact ⟨.cfgout, pin, rfl⟩
  | setpin pin => exact ⟨.setpin, pin, rfl⟩
  | clrpin pin => exact ⟨.clrpin, pin, rfl⟩
  | cfgouts pin => exact ⟨.cfgouts, pin, rfl⟩
  | _ => cases h

/-! ### What no command touches once its checks pass -/

section
variable (op : RcOp) (pin : Pin) (s : State)

@[simp] theorem performed_halted : (performed op pin s).halted = s.halted := by
  cases op <;> simp [performed, readModifyWrite]

@[simp] theorem performed_acqOk : (performed op pin s).acqOk = s.acqOk := by
  cases op <;> simp [performed, readModifyWrite]

@[simp] theorem performed_draws : (performed op pin s).draws = s.draws := by
  cases op <;> simp [performed, readModifyWrite, fselReg]

@[simp] theorem performed_pending : (performed op pin s).pending = s.pending := by
  cases op <;> simp [performed, readModifyWrite]

@[simp] theorem performed_events : (performed op pin s).events = s.events := by
  cases op <;> simp [performed, readModifyWrite]

@[simp] theorem performed_responses : (performed op pin s).responses = s.responses := by
  cases op <;> simp [performed, readModifyWrite]

end

/-- MAPREG alone changes MAPPED (R16). -/
theorem performed_mapped {op : RcOp} (h : op ≠ .mapreg) (pin : Pin) (s : State) :
    (performed op pin s).mapped = s.mapped := by
  cases op with
  | mapreg => exact absurd rfl h
  | _ => simp [performed, readModifyWrite]

/-- Whatever the checks say, a command leaves the inputs and ED's output alone and answers once. -/
theorem command_frame {op : RcOp} {pin : Pin} {s t : State} (h : exec (commandInstr op pin) s = .next t) :
    t.acqOk = s.acqOk ∧ t.draws = s.draws ∧ t.pending = s.pending ∧ t.events = s.events ∧
      ∃ a, t.responses = s.responses ++ [a] := by
  rw [exec_commandInstr] at h
  obtain ⟨-, ⟨-, rfl⟩ | ⟨-, rfl⟩ | ⟨st, -, -, rfl⟩⟩ := runCommand_cases h <;> simp

/-! ### The checks of each kind of operation (R89) -/

theorem failedCheck_mappin (pin : Pin) (s : State) :
    failedCheck .mappin pin s = if 53 < pin.toNat then some .pinRange else none := by
  simp [failedCheck, takesPin, usesBank, needsMapping, Config.pinMax]

theorem failedCheck_mapreg (pin : Pin) (s : State) :
    failedCheck .mapreg pin s =
      if s.mapped = true then some .alreadyMapped else if s.acqOk = false then some .fatalAcq else none := by
  simp [failedCheck, takesPin, usesBank, needsMapping]

theorem failedCheck_configure {op : RcOp} (hop : op = .cfgout ∨ op = .cfgouts) (pin : Pin) (s : State) :
    failedCheck op pin s =
      if 53 < pin.toNat then some .pinRange else if s.mapped = false then some .notMapped else none := by
  rcases hop with rfl | rfl <;> simp [failedCheck, takesPin, usesBank, needsMapping, Config.pinMax]

theorem failedCheck_level {op : RcOp} (hop : op = .setpin ∨ op = .clrpin) (pin : Pin) (s : State) :
    failedCheck op pin s =
      if 53 < pin.toNat then some .pinRange else if 31 < pin.toNat then some .pinBank
      else if s.mapped = false then some .notMapped else none := by
  rcases hop with rfl | rfl <;>
    simp [failedCheck, takesPin, usesBank, needsMapping, Config.pinMax, Config.bank0Max]

end Sys2Proof.Machine
end

section
/-! SUPPORT. Decoding and encoding undo each other (30_encoding R51 to R59): a record is a row and its fields, a
command word is an operation with its low byte or a reserved word. -/

namespace Sys2Proof

open Machine

/-! ### Records -/

/-- Decoding loses nothing of a record, and gives a row whose class code is in range. -/
theorem encode_decodeRecord (r : Record) :
    (decodeRecord r).WellFormed = true ∧ encode (decodeRecord r) = .record r := by
  have hr := packRecord_fields r
  rcases class_cases (recClass r) with h | h | h | h | h | h | h | h | h
  · rw [decodeRecord_axis h]; exact ⟨rfl, by rw [encode, ← h, hr]⟩
  · rw [decodeRecord_button h]; exact ⟨rfl, by rw [encode, ← h, hr]⟩
  · rw [decodeRecord_unknown00 h]; exact ⟨rfl, by rw [encode, ← h, hr]⟩
  · rw [decodeRecord_unknown03 h]; exact ⟨rfl, by rw [encode, ← h, hr]⟩
  · rw [decodeRecord_unknown04 h]; exact ⟨by simpa [Instr.WellFormed] using h, by rw [encode, hr]⟩
  · rw [decodeRecord_unknown08 h]; exact ⟨by simpa [Instr.WellFormed] using h, by rw [encode, hr]⟩
  · rw [decodeRecord_unknown10 h]; exact ⟨by simpa [Instr.WellFormed] using h, by rw [encode, hr]⟩
  · rw [decodeRecord_unknown20 h]; exact ⟨by simpa [Instr.WellFormed] using h, by rw [encode, hr]⟩
  · rw [decodeRecord_unknown40 h]; exact ⟨by simpa [Instr.WellFormed] using h, by rw [encode, hr]⟩

/-! ### Command words -/

/-- A word that spells no operation: a reserved bit is set, or the operation code is 6 or 7 (R59). -/
def ReservedWord (c : CmdWord) : Prop := cmdReserved c ≠ 0#5 ∨ cmdOp c = 6#3 ∨ cmdOp c = 7#3

theorem decodeCommand_reserved {c : CmdWord} (h : ReservedWord c) :
    decodeCommand c = .error .illegalCommand := by
  rcases h with h | h | h <;> simp [decodeCommand, h]

@[simp] theorem decodeCommand_packCommand (op : RcOp) (pin : Pin) :
    decodeCommand (packCommand (opCode op) pin) = .ok (commandInstr op pin) := by
  cases op <;> simp [decodeCommand, opCode, commandInstr]

@[simp] theorem encode_commandInstr (op : RcOp) (pin : Pin) :
    encode (commandInstr op pin) = .command (packCommand (opCode op) pin) := by
  cases op <;> rfl

theorem wellFormed_commandInstr (op : RcOp) (pin : Pin) : (commandInstr op pin).WellFormed = true := by
  cases op <;> rfl

theorem opCode_surjective_below_six : ∀ code : BitVec 3, code ≠ 6#3 → code ≠ 7#3 →
    code ∈ [opCode .mappin, opCode .mapreg, opCode .cfgout, opCode .setpin, opCode .clrpin, opCode .cfgouts] := by
  decide

/-- Every command word is an operation with its low byte, or reserved. -/
theorem commandWord_cases (c : CmdWord) :
    (∃ op pin, c = packCommand (opCode op) pin) ∨ ReservedWord c := by
  by_cases h : ReservedWord c
  · exact .inr h
  · obtain ⟨hres, h6, h7⟩ : cmdReserved c = 0#5 ∧ cmdOp c ≠ 6#3 ∧ cmdOp c ≠ 7#3 := by
      simpa [ReservedWord, not_or] using h
    have hop : ∃ op, cmdOp c = opCode op := by
      have := opCode_surjective_below_six _ h6 h7
      simp only [List.mem_cons, List.not_mem_nil, or_false] at this
      rcases this with h | h | h | h | h | h <;> exact ⟨_, h⟩
    obtain ⟨op, hop⟩ := hop
    exact .inl ⟨op, cmdPin c, by rw [← hop, packCommand_fields hres]⟩

theorem reservedWord_iff (c : CmdWord) : ReservedWord c ↔ 0x0600 ≤ c.toNat := by
  have hc := c.isLt
  simp only [ReservedWord, cmdReserved, cmdOp, ne_eq, ← BitVec.toNat_inj, BitVec.extractLsb'_toNat,
    Nat.shiftRight_eq_div_pow, BitVec.toNat_ofNat]
  omega

/-! ### The statements -/

/-- Settles O1: the fields of a packed word are the operands, and the class code of the row chooses it. -/
theorem encodedInstructionDecodesBack : Obligations.EncodedInstructionDecodesBack := by
  intro i hwf
  cases hi : i.isRecord with
  | false =>
    obtain ⟨op, pin, rfl⟩ := exists_commandInstr hi
    rw [encode_commandInstr]
    exact decodeCommand_packCommand op pin
  | true =>
    cases i with
    | evtAxis ts value ini number =>
      rw [encode, decode, decodeRecord_axis (recClass_packRecord ..)]
      simp
    | evtButton ts value ini number =>
      rw [encode, decode, decodeRecord_button (recClass_packRecord ..)]
      simp
    | evtUnknown00 ts value ini number =>
      rw [encode, decode, decodeRecord_unknown00 (recClass_packRecord ..)]
      simp
    | evtUnknown03 ts value ini number =>
      rw [encode, decode, decodeRecord_unknown03 (recClass_packRecord ..)]
      simp
    | evtUnknown04 ts value cls ini number =>
      rw [encode, decode, decodeRecord_unknown04 (by simpa [Instr.WellFormed] using hwf)]
      simp
    | evtUnknown08 ts value cls ini number =>
      rw [encode, decode, decodeRecord_unknown08 (by simpa [Instr.WellFormed] using hwf)]
      simp
    | evtUnknown10 ts value cls ini number =>
      rw [encode, decode, decodeRecord_unknown10 (by simpa [Instr.WellFormed] using hwf)]
      simp
    | evtUnknown20 ts value cls ini number =>
      rw [encode, decode, decodeRecord_unknown20 (by simpa [Instr.WellFormed] using hwf)]
      simp
    | evtUnknown40 ts value cls ini number =>
      rw [encode, decode, decodeRecord_unknown40 (by simpa [Instr.WellFormed] using hwf)]
      simp
    | _ => cases hi

/-- Settles O2: a record is rebuilt from its fields, and a reserved command word does not decode. -/
theorem decodedWordEncodesBack : Obligations.DecodedWordEncodesBack := by
  intro w i h
  cases w with
  | record r =>
    obtain rfl : decodeRecord r = i := Except.ok.inj h
    exact encode_decodeRecord r
  | command c =>
    rcases commandWord_cases c with ⟨op, pin, rfl⟩ | hres
    · obtain rfl : commandInstr op pin = i := Except.ok.inj ((decodeCommand_packCommand op pin).symm.trans h)
      exact ⟨wellFormed_commandInstr op pin, encode_commandInstr op pin⟩
    · cases (decodeCommand_reserved hres).symm.trans h

/-- Settles O3: a word spells an operation or is reserved, and the reserved words are those from 0x0600 on. -/
theorem commandWordsDefinedBelow0600 : Obligations.CommandWordsDefinedBelow0600 := by
  refine fun c => ⟨fun hlow => ?_, fun hhigh => ?_, (reservedWord_iff c).symm⟩
  · rcases commandWord_cases c with ⟨op, pin, rfl⟩ | hres
    · exact ⟨_, decodeCommand_packCommand op pin⟩
    · have := (reservedWord_iff c).1 hres
      omega
  · exact decodeCommand_reserved ((reservedWord_iff c).2 hhigh)

/-- Settles O5: each word evaluates. -/
theorem writtenOutWordsDecode : Obligations.WrittenOutWordsDecode :=
  ⟨rfl, rfl, rfl, rfl, rfl, rfl, rfl, rfl, rfl⟩

/-! ### The opcode table -/

/-- No two rows of the table match a word in common: their widths differ, or a bit that both masks keep. -/
def OpcodeRow.Excludes (a b : OpcodeRow) : Prop :=
  a.width ≠ b.width ∨ a.mask &&& b.mask &&& a.pattern ≠ a.mask &&& b.mask &&& b.pattern

theorem not_rowMatches_of_excludes {a b : OpcodeRow} {w : PortWord} (h : a.Excludes b)
    (ha : rowMatches w a = true) : rowMatches w b ≠ true := by
  intro hb
  simp only [rowMatches, Bool.and_eq_true, beq_iff_eq] at ha hb
  obtain ⟨⟨hwa, hpa⟩, hwb, hpb⟩ := And.intro ha hb
  rcases h with h | h
  · exact h (hwa.trans hwb.symm)
  · apply h
    rw [← hpa, ← hpb]
    apply BitVec.eq_of_getLsbD_eq
    intro b _
    simp only [BitVec.getLsbD_and]
    grind

theorem opcodeTable_excludes : opcodeTable.Pairwise OpcodeRow.Excludes := by
  unfold OpcodeRow.Excludes
  decide

theorem opcodeRow_mem (i : Instr) : opcodeRow i ∈ opcodeTable := by
  cases i <;> simp [opcodeTable, opcodeRow]

theorem rowMatches_encode {i : Instr} (h : i.WellFormed = true) : rowMatches (encode i) (opcodeRow i) = true := by
  cases i with
  | evtAxis => exact Laws.EncodesToItsRow.evtAxis _ _ _ _ h
  | evtButton => exact Laws.EncodesToItsRow.evtButton _ _ _ _ h
  | evtUnknown00 => exact Laws.EncodesToItsRow.evtUnknown00 _ _ _ _ h
  | evtUnknown03 => exact Laws.EncodesToItsRow.evtUnknown03 _ _ _ _ h
  | evtUnknown04 => exact Laws.EncodesToItsRow.evtUnknown04 _ _ _ _ _ h
  | evtUnknown08 => exact Laws.EncodesToItsRow.evtUnknown08 _ _ _ _ _ h
  | evtUnknown10 => exact Laws.EncodesToItsRow.evtUnknown10 _ _ _ _ _ h
  | evtUnknown20 => exact Laws.EncodesToItsRow.evtUnknown20 _ _ _ _ _ h
  | evtUnknown40 => exact Laws.EncodesToItsRow.evtUnknown40 _ _ _ _ _ h
  | mappin => exact Laws.EncodesToItsRow.mappin _ h
  | mapreg => exact Laws.EncodesToItsRow.mapreg _ h
  | cfgout => exact Laws.EncodesToItsRow.cfgout _ h
  | setpin => exact Laws.EncodesToItsRow.setpin _ h
  | clrpin => exact Laws.EncodesToItsRow.clrpin _ h
  | cfgouts => exact Laws.EncodesToItsRow.cfgouts _ h

/-- One row of a pairwise exclusive table matching a word, it is the only one. -/
theorem filter_rowMatches {w : PortWord} {row : OpcodeRow} (hmem : row ∈ opcodeTable)
    (hrow : rowMatches w row = true) : opcodeTable.filter (rowMatches w) = [row] := by
  have hin : row ∈ opcodeTable.filter (rowMatches w) := List.mem_filter.2 ⟨hmem, hrow⟩
  have hall : ∀ a ∈ opcodeTable.filter (rowMatches w), rowMatches w a = true :=
    fun a ha => (List.mem_filter.1 ha).2
  have hpair := opcodeTable_excludes.filter (rowMatches w)
  generalize opcodeTable.filter (rowMatches w) = l at hin hall hpair
  match l, hin, hall, hpair with
  | [a], hin, _, _ => rw [List.mem_singleton.1 hin]
  | a :: b :: _, _, hall, hpair =>
    have hab : a.Excludes b := List.rel_of_pairwise_cons hpair (List.mem_cons_self ..)
    exact absurd (hall b (by simp)) (not_rowMatches_of_excludes hab (hall a (by simp)))

/-- The command rows look at the high byte of the word, and none has a match from 6 on there. -/
theorem commandRow_high_byte : ∀ row ∈ opcodeTable, row.width = 16 →
    row.mask = (0xFF : BitVec 8).setWidth 64 <<< 8 ∧
      row.pattern = (row.pattern.extractLsb' 8 8).setWidth 64 <<< 8 ∧ row.pattern.extractLsb' 8 8 < 6#8 := by
  decide

theorem reserved_high_byte : ∀ (res : BitVec 5) (code : BitVec 3),
    res ≠ 0#5 ∨ code = 6#3 ∨ code = 7#3 → 6#8 ≤ res ++ code := by
  decide

/-- A reserved command word matches no row (R59). -/
theorem not_rowMatches_reserved {c : CmdWord} {row : OpcodeRow} (hres : ReservedWord c)
    (hrow : row ∈ opcodeTable) : rowMatches (.command c) row ≠ true := by
  intro hm
  simp only [rowMatches, Bool.and_eq_true, beq_iff_eq] at hm
  obtain ⟨hwidth, hbits⟩ := hm
  obtain ⟨hmask, hpattern, hlt⟩ := commandRow_high_byte row hrow hwidth
  rw [hmask, hpattern] at hbits
  rw [← (Laws.command_mask_iff c _).1 hbits] at hlt
  exact absurd (reserved_high_byte _ _ hres) (BitVec.not_le.2 hlt)

/-- Settles O4: the row of a decoded word matches the word, no two rows match one word, and a refused word is
a reserved command word. -/
theorem everyWordMatchesItsOneRow : Obligations.EveryWordMatchesItsOneRow := by
  refine fun w => ⟨fun i h => ?_, fun e h => ?_⟩
  · obtain ⟨hwf, rfl⟩ := decodedWordEncodesBack w i h
    exact filter_rowMatches (opcodeRow_mem i) (rowMatches_encode hwf)
  · cases w with
    | record r => cases h
    | command c =>
      rcases commandWord_cases c with ⟨op, pin, rfl⟩ | hres
      · cases (decodeCommand_packCommand op pin).symm.trans h
      · exact List.filter_eq_nil_iff.2 fun row hrow => not_rowMatches_reserved hres hrow

end Sys2Proof
end

section
/-! SUPPORT. What a step does with the input it takes (10_state R14, 60_exceptions R89, R126, 70_reset R136): one
equation per input, and the four ways a step can end. -/

namespace Sys2Proof.Machine

/-! ### One equation per input -/

theorem step_record {s : State} {r : Record} {rest : List Input}
    (h : takeNext s.halted s.pending = some (.record r, rest)) :
    step s = exec (decodeRecord r) (s.taking rest) := by
  simp [step, fetch, h]

theorem step_reset {s : State} {rest : List Input}
    (h : takeNext s.halted s.pending = some (.reset, rest)) : step s = .next (s.restart rest) := by
  simp [step, fetch, h]

theorem step_command {s : State} {c : CmdWord} {ok : Bool} {rest : List Input} {i : Instr}
    (hrun : s.halted = false) (hp : s.pending = .command c ok :: rest) (hd : decodeCommand c = .ok i) :
    step s = exec i (s.takingCommand rest ok) := by
  simp [step, fetch, hrun, hp, hd]

theorem step_reserved {s : State} {c : CmdWord} {ok : Bool} {rest : List Input}
    (hrun : s.halted = false) (hp : s.pending = .command c ok :: rest) (hres : ReservedWord c) :
    step s = .next ((s.takingCommand rest ok).respond .illegalCmd none) := by
  simp [step, fetch, hrun, hp, decodeCommand_reserved hres, reject]

theorem step_stuck {s : State} (hne : s.pending ≠ []) (h : takeNext s.halted s.pending = none) :
    step s = .fault .rcHalted := by
  simp [step, fetch, h, hne]

theorem step_idle {s : State} (hp : s.pending = []) : step s = .next s := by
  simp [step, fetch, hp]

/-! ### Every next state, by what was fetched -/

/-- An instruction or a reserved word is performed in the state with its input taken, a record leaving the latch
of `acq_ok` as it was. -/
theorem fetch_cases (s : State) :
    fetch s = .idle ∨ fetch s = .stuck ∨ (∃ rest, fetch s = .reset (s.restart rest)) ∨
    (∃ i rest ok, fetch s = .instr i (s.takingCommand rest ok)) ∨
    ∃ rest ok, fetch s = .illegal (s.takingCommand rest ok) := by
  unfold fetch
  cases hn : takeNext s.halted s.pending with
  | none =>
    by_cases hp : s.pending = []
    · exact .inl (if_pos hp)
    · exact .inr (.inl (if_neg hp))
  | some taken =>
    obtain ⟨input, rest⟩ := taken
    cases input with
    | reset => exact .inr (.inr (.inl ⟨rest, rfl⟩))
    | record r => exact .inr (.inr (.inr (.inl ⟨decodeRecord r, rest, s.acqOk, rfl⟩)))
    | command c ok =>
      cases hd : decodeCommand c with
      | ok i => exact .inr (.inr (.inr (.inl ⟨i, rest, ok, by simp only [hd]⟩)))
      | error e => exact .inr (.inr (.inr (.inr ⟨rest, ok, by simp only [hd]⟩)))

/-- A step that ends in a next state waits, takes a reset, runs an instruction or answers a reserved word. -/
theorem step_fetch_cases {s t : State} (h : step s = .next t) :
    (fetch s = .idle ∧ t = s) ∨
    (∃ rest, fetch s = .reset (s.restart rest) ∧ t = s.restart rest) ∨
    (∃ i rest ok, fetch s = .instr i (s.takingCommand rest ok) ∧
      exec i (s.takingCommand rest ok) = .next t) ∨
    ∃ rest ok, fetch s = .illegal (s.takingCommand rest ok) ∧
      t = (s.takingCommand rest ok).respond .illegalCmd none := by
  rw [step] at h
  rcases fetch_cases s with hf | hf | ⟨rest, hf⟩ | ⟨i, rest, ok, hf⟩ | ⟨rest, ok, hf⟩ <;> rw [hf] at h
  · exact .inl ⟨hf, (Host.Outcome.next.inj h).symm⟩
  · cases h
  · exact .inr (.inl ⟨rest, hf, (Host.Outcome.next.inj h).symm⟩)
  · exact .inr (.inr (.inl ⟨i, rest, ok, hf, h⟩))
  · exact .inr (.inr (.inr ⟨rest, ok, hf, (Host.Outcome.next.inj h).symm⟩))

/-! ### The statements about a step -/

/-- Settles O6: a record is taken whatever the flags, a command by a running RC; the word placed is first. -/
theorem stepRunsDecodedInstruction : Obligations.StepRunsDecodedInstruction := by
  refine ⟨fun s r rest i hp hd => ?_, fun s c ok rest i hrun hp hd => step_command hrun hp hd,
    fun s w i hd => ?_, fun s w i hrun hd => ?_⟩
  · obtain rfl : decodeRecord r = i := Except.ok.inj hd
    exact step_record (by simp [hp])
  · obtain rfl : decodeRecord (BitVec.ofNat 64 w) = i := by
      simpa [decodeTableWord, decodeBytes, Except.toOption] using hd
    exact step_record (rest := s.pending) (by simp [inputOfTableWord])
  · have hdec : decodeCommand (BitVec.ofNat 16 w) = .ok i := by
      simp only [decodeTableWord, decode] at hd
      cases hc : decodeCommand (BitVec.ofNat 16 w) with
      | ok j => simpa [hc, Except.toOption] using hd
      | error e => simp [hc, Except.toOption] at hd
    exact step_command hrun (by simp [inputOfTableWord]) hdec

/-- Settles O7: the decoder refuses a reserved word, and the step answers it. -/
theorem reservedWordRejected : Obligations.ReservedWordRejected :=
  fun _ _ _ _ hrun hp hres => step_reserved hrun hp hres

/-- Settles O8: there is nothing to take. -/
theorem nothingPresentedNothingChanges : Obligations.NothingPresentedNothingChanges :=
  fun _ hp => step_idle hp

/-- Settles O43: the front end of RC faults, and nothing can be taken past the commands. -/
theorem haltedControllerHasNoStep : Obligations.HaltedControllerHasNoStep := by
  refine fun s hhalt => ⟨fun i hi => ?_, fun hne hall => ?_⟩
  · obtain ⟨op, pin, rfl⟩ := exists_commandInstr hi
    rw [exec_commandInstr]
    exact runCommand_halted _ _ _ _ _ hhalt
  · exact step_stuck hne (by rw [hhalt]; exact (takeNext_halted_eq_none_iff _).2 hall)

/-- Settles O44: the record is what is taken, past the commands. -/
theorem haltedControllerLetsDecoderGoOn : Obligations.HaltedControllerLetsDecoderGoOn := by
  intro s waiting rest r hhalt hwait hp
  apply step_record
  rw [hhalt, hp]
  exact (takeNext_halted_skips hwait r rest).1

/-- Settles O50: a running block takes the reset at the head, a halted one past its commands; the window shows
what the kept registers and draw counter show. -/
theorem resetKeepsThePeripheral : Obligations.ResetKeepsThePeripheral := by
  intro s waiting rest hwait hp
  have htake : takeNext s.halted s.pending = some (.reset, rest) := by
    rw [hp]
    rcases hwait with rfl | ⟨hhalt, hwait⟩
    · rfl
    · rw [hhalt]
      exact (takeNext_halted_skips hwait 0 rest).2
  exact ⟨_, step_reset htake, rfl, rfl, rfl, rfl, rfl, rfl, rfl, rfl, fun j => peek_congr rfl j fun _ _ => rfl⟩

/-! ### The status of a command word (R89, R123) -/

/-- A running RC answers every command once, with the status of its first failed check or OK. -/
theorem runCommand_answers (op : RcOp) (pin : Pin) {s : State} (hrun : s.halted = false) :
    ∃ t cfg, exec (commandInstr op pin) s = .next t ∧
      t.responses = s.responses ++ [⟨(failedCheck op pin s).getD .ok, cfg⟩] := by
  rw [exec_commandInstr]
  cases hc : failedCheck op pin s with
  | none => exact ⟨_, _, runCommand_performs _ _ hrun hc, by simp; rfl⟩
  | some st =>
    by_cases hst : st = .fatalAcq
    · subst hst
      exact ⟨_, none, runCommand_fatal _ _ hrun hc, rfl⟩
    · exact ⟨_, none, runCommand_rejects _ _ hrun hc hst, rfl⟩

theorem toNat_packCommand (code : BitVec 3) (pin : Pin) :
    (packCommand code pin).toNat = code.toNat * 256 + pin.toNat := by
  have hpin := pin.isLt
  rw [packCommand, BitVec.toNat_append, BitVec.toNat_append, ← Nat.shiftLeft_add_eq_or_of_lt hpin]
  simp [Nat.shiftLeft_eq]

theorem chainStatus_reserved {c : CmdWord} (h : ReservedWord c) (mapped acqOk : Bool) :
    chainStatus c mapped acqOk = .illegalCmd := by
  have hlow := (reservedWord_iff c).1 h
  exact if_pos (by omega)

/-- The chain on the word's number is the front end's chain on the operation and its pin. -/
theorem chainStatus_packCommand (op : RcOp) (pin : Pin) (s : State) :
    chainStatus (packCommand (opCode op) pin) s.mapped s.acqOk = (failedCheck op pin s).getD .ok := by
  have hpin := pin.isLt
  have hop : (opCode op).toNat < 6 := by cases op <;> decide
  have hcode : ((opCode op).toNat * 256 + pin.toNat) / 256 % 8 = (opCode op).toNat := by omega
  have hlow : ((opCode op).toNat * 256 + pin.toNat) % 256 = pin.toNat := by omega
  have hhigh : ((opCode op).toNat * 256 + pin.toNat) / 2048 = 0 := by omega
  simp only [chainStatus, toNat_packCommand, hcode, hlow, hhigh]
  cases op with
  | mappin => simp [failedCheck_mappin, opCode, apply_ite (Option.getD · Status.ok)]
  | mapreg => simp [failedCheck_mapreg, opCode, apply_ite (Option.getD · Status.ok)]
  | cfgout => simp [failedCheck_configure, opCode, apply_ite (Option.getD · Status.ok)]
  | setpin => simp [failedCheck_level, opCode, apply_ite (Option.getD · Status.ok)]
  | clrpin => simp [failedCheck_level, opCode, apply_ite (Option.getD · Status.ok)]
  | cfgouts => simp [failedCheck_configure, opCode, apply_ite (Option.getD · Status.ok)]

/-- Settles O41: a reserved word is answered by the step, any other by the front end's first failed check. -/
theorem statusFollowsTheCheckOrder : Obligations.StatusFollowsTheCheckOrder := by
  intro s c ok rest hrun hp
  rcases commandWord_cases c with ⟨op, pin, rfl⟩ | hres
  · rw [step_command hrun hp (decodeCommand_packCommand op pin)]
    have hchain := chainStatus_packCommand op pin (s.takingCommand rest ok)
    rw [State.takingCommand_mapped, State.takingCommand_acqOk] at hchain
    rw [hchain]
    exact runCommand_answers op pin hrun
  · exact ⟨_, none, step_reserved hrun hp hres, by rw [chainStatus_reserved hres]; rfl⟩

end Sys2Proof.Machine
end

section
/-! SUPPORT. The forms of the event words (30_encoding R54, R55), and what is left of a record once the decoder
has read it (40_event_decoder R78, R79); a record row and a command take effect in either order (20_memory R49). -/

namespace Sys2Proof.Machine

/-- The tag of an event's word (R54). -/
def DecodedEvent.tag : DecodedEvent → BitVec 2
  | .axis _ _ => 2
  | .button _ _ => 1
  | .unknown => 0

theorem eventWord_tag (ev : DecodedEvent) : (eventWord ev).extractLsb' 24 2 = ev.tag := by
  cases ev with
  | unknown => rfl
  | axis index value | button index value =>
    exact (BitVec.extractLsb'_append_eq_of_le (by decide)).trans <|
      (BitVec.extractLsb'_append_eq_of_le (by decide)).trans BitVec.extractLsb'_append_eq_right

theorem eventWord_eq_zero_iff (ev : DecodedEvent) : eventWord ev = 0 ↔ ev.tag = 0 := by
  refine ⟨fun h => ?_, fun h => ?_⟩
  · rw [← eventWord_tag, h]; rfl
  · cases ev with
    | unknown => rfl
    | axis | button => cases h

theorem tag_ne_three (ev : DecodedEvent) : ev.tag ≠ 3 := by
  cases ev <;> simp [DecodedEvent.tag]

theorem tag_eventOfRecord_axis_iff (r : Record) :
    (eventOfRecord r).tag = 2 ↔ r.extractLsb' 48 8 = 0x02#8 ∨ r.extractLsb' 48 8 = 0x82#8 := by
  rw [← rawType_axis_iff, ← class_eq_rawType]
  by_cases ha : recClass r = Config.classAxis
  · rw [eventOfRecord_axis ha]
    exact iff_of_true rfl ha
  · refine iff_of_false ?_ ha
    rw [eventOfRecord, if_neg ha]
    split_ifs <;> simp [DecodedEvent.tag]

theorem tag_eventOfRecord_button_iff (r : Record) :
    (eventOfRecord r).tag = 1 ↔ r.extractLsb' 48 8 = 0x01#8 ∨ r.extractLsb' 48 8 = 0x81#8 := by
  rw [← rawType_button_iff, ← class_eq_rawType]
  by_cases hb : recClass r = Config.classButton
  · rw [eventOfRecord_button hb]
    exact iff_of_true rfl hb
  · refine iff_of_false ?_ hb
    rw [eventOfRecord, if_neg hb]
    split_ifs <;> simp [DecodedEvent.tag]

theorem eventOfRecord_congr {r r' : Record} (hnumber : recNumber r = recNumber r')
    (hclass : recClass r = recClass r') (hvalue : recValue r = recValue r') :
    eventOfRecord r = eventOfRecord r' := by
  rw [eventOfRecord, eventOfRecord, hnumber, hclass, hvalue]

/-- A record row gives the word of one event, whatever the state. -/
theorem exec_record_event {i : Instr} (hi : i.isRecord = true) :
    ∃ ev, ∀ s, exec i s = .next (s.emit (eventWord ev)) := by
  cases i with
  | evtAxis ts value ini number => exact ⟨.axis number value, fun _ => rfl⟩
  | evtButton ts value ini number => exact ⟨.button number value, fun _ => rfl⟩
  | evtUnknown00 | evtUnknown03 | evtUnknown04 | evtUnknown08 | evtUnknown10 | evtUnknown20 | evtUnknown40 =>
    exact ⟨.unknown, fun _ => rfl⟩
  | _ => cases hi

/-! ### The statements about the decoder -/

/-- Settles O9: the meaning of each row, its event word written out. -/
theorem decoderRowsComplete : Obligations.DecoderRowsComplete :=
  fun _ _ _ _ _ _ => ⟨rfl, rfl, rfl, rfl, rfl, rfl, rfl, rfl, rfl⟩

/-- Counted by the four rawType values that are left. -/
theorem unknown_rawTypes_count :
    ((List.range 256).filter fun b => b % 128 ≠ 2 ∧ b % 128 ≠ 1).length = 252 := by
  have h := List.length_eq_length_filter_add (l := List.range 256) fun b => b % 128 ≠ 2 ∧ b % 128 ≠ 1
  have hrest : ((List.range 256).filter fun b => !decide (b % 128 ≠ 2 ∧ b % 128 ≠ 1)).length = 4 := rfl
  rw [List.length_range] at h
  omega

/-- Settles O15: the event of the record, whose tag tells its kind. -/
theorem everyRecordGivesOneEvent : Obligations.EveryRecordGivesOneEvent := by
  refine ⟨fun s r => ⟨_, exec_decodeRecord s r, ?_⟩, rfl, rfl, unknown_rawTypes_count⟩
  rw [eventWord_tag]
  exact ⟨tag_eventOfRecord_axis_iff r, tag_eventOfRecord_button_iff r, eventWord_eq_zero_iff _, tag_ne_three _⟩

/-- Settles O16: the event of a record reads its number, class code and value only, the Unknown event the class
code alone. -/
theorem timestampNeverMatters : Obligations.TimestampNeverMatters := by
  refine ⟨fun s r r' hnumber hclass hvalue => ?_, fun s r r' hclass ha hb => ?_⟩
  · rw [exec_decodeRecord, exec_decodeRecord, eventOfRecord_congr hnumber hclass hvalue]
  · have ha' : recClass r' ≠ Config.classAxis := fun h => ha (hclass.trans h)
    have hb' : recClass r' ≠ Config.classButton := fun h => hb (hclass.trans h)
    rw [exec_decodeRecord, exec_decodeRecord, eventOfRecord_unknown ha hb, eventOfRecord_unknown ha' hb']

/-- Settles O17: a record row only emits. -/
theorem decoderFrame : Obligations.DecoderFrame := by
  intro i s t hi h
  obtain ⟨e, he⟩ := exec_record hi
  obtain rfl : s.emit e = t := Host.Outcome.next.inj ((he s).symm.trans h)
  exact ⟨⟨e, rfl⟩, rfl, rfl, rfl, rfl, rfl, rfl, rfl, rfl, rfl, fun j => peek_congr rfl j fun _ _ => rfl⟩

/-- A record row commutes with the checks of RC and with its answers (R49). -/
theorem unseenByFrontEnd_emit (e : Word) : UnseenByFrontEnd (State.emit · e) :=
  ⟨fun _ => rfl, fun _ _ _ => rfl, fun _ _ _ => rfl, fun _ => rfl⟩

theorem performed_emit (op : RcOp) (pin : Pin) (e : Word) (s : State) :
    performed op pin (s.emit e) = (performed op pin s).emit e := by
  cases op <;> rfl

/-- Settles O45: a halted RC faults in either order; a running one answers the same, the event word added. -/
theorem decodeAndCommandCommute : Obligations.DecodeAndCommandCommute := by
  intro i j s hi hj
  obtain ⟨e, he⟩ := exec_record hi
  obtain ⟨op, pin, rfl⟩ := exists_commandInstr hj
  rw [execAll_cons_of_next _ (he s)]
  cases hrun : s.halted with
  | true =>
    have hhalt (u : State) (hu : u.halted = true) : exec (commandInstr op pin) u = .fault .rcHalted := by
      rw [exec_commandInstr]
      exact runCommand_halted _ _ _ _ _ hu
    simp only [execAll, hhalt s hrun, hhalt (s.emit e) hrun]
  | false =>
    obtain ⟨t, -, ht, -⟩ := runCommand_answers op pin hrun
    have ht' : exec (commandInstr op pin) (s.emit e) = .next (t.emit e) := by
      rw [exec_commandInstr] at ht ⊢
      exact runCommand_change (unseenByFrontEnd_emit e) (performed_emit op pin e s) ht
    rw [execAll_cons_of_next _ ht, execAll_cons_of_next _ ht', execAll_cons_of_next _ (he t)]

end Sys2Proof.Machine
end

section
/-! SUPPORT. The pin mapper's numbers (41_pin_mapper R82 to R88): where a valid pin's field and mask bit lie, and
that no two pins share them. -/

namespace Sys2Proof.Machine

/-! ### The signals of a PinConfig -/

theorem pinConfig_fselIdx {pin : Pin} (h : pin.toNat ≤ 53) :
    (pinConfig pin).fselIdx.toNat = pin.toNat / 10 := by
  simp only [pinConfig, fselIndex, Config.fselPerReg, BitVec.toNat_ofNat]
  omega

theorem pinConfig_fselShift {pin : Pin} : (pinConfig pin).fselShift.toNat = pin.toNat % 10 * 3 := by
  simp only [pinConfig, fselShift, Config.fselPerReg, Config.fselFieldBits, BitVec.toNat_ofNat]
  omega

theorem bitMask_toNat {pin : Pin} (h : pin.toNat ≤ 53) : (bitMask pin).toNat = 2 ^ pin.toNat := by
  have hlt : 2 ^ pin.toNat < 2 ^ 64 := Nat.pow_lt_pow_right (by decide) (by omega)
  simpa [bitMask, BitVec.toNat_shiftLeft, Nat.shiftLeft_eq] using hlt

/-- Bits of different places are disjoint. -/
theorem bitMask_and_bitMask {p q : Pin} (h : p.toNat ≠ q.toNat) : bitMask p &&& bitMask q = 0 := by
  apply BitVec.eq_of_getLsbD_eq
  intro b hb
  simp only [bitMask, BitVec.getLsbD_and, BitVec.getLsbD_shiftLeft, BitVec.getLsbD_one]
  grind

/-- Settles O18: each signal's number fits its width on a valid pin. -/
theorem pinMapperArithmetic : Obligations.PinMapperArithmetic := by
  refine ⟨fun pin => ⟨rfl, rfl, rfl⟩, fun pin h => ?_⟩
  rw [pinConfig_fselIdx h, pinConfig_fselShift]
  exact ⟨rfl, by omega, rfl, by omega, bitMask_toNat h⟩

/-- Settles O19: quotient and remainder by 10 tell two pins apart, and so do the powers of 2. -/
theorem pinLocationsAreDistinct : Obligations.PinLocationsAreDistinct := by
  intro p q hp hq hne
  have hpq : p.toNat ≠ q.toNat := fun h => hne (BitVec.eq_of_toNat_eq h)
  have hidx (h : (pinConfig p).fselIdx = (pinConfig q).fselIdx) : p.toNat / 10 = q.toNat / 10 := by
    rw [← pinConfig_fselIdx hp, ← pinConfig_fselIdx hq, h]
  refine ⟨fun h => ?_, fun h => ?_, bitMask_and_bitMask hpq, fun h => ?_⟩
  · obtain ⟨hi, hs⟩ := Prod.mk.inj h
    have hdiv := hidx hi
    have hmod : p.toNat % 10 * 3 = q.toNat % 10 * 3 := by
      rw [← pinConfig_fselShift, ← pinConfig_fselShift, hs]
    omega
  · have hpow : 2 ^ p.toNat = 2 ^ q.toNat := by
      rw [← bitMask_toNat hp, ← bitMask_toNat hq]
      exact congrArg BitVec.toNat h
    exact hpq (Nat.pow_right_injective le_rfl hpow)
  · have hdiv := hidx h
    rw [pinConfig_fselShift, pinConfig_fselShift]
    omega

/-- MAPPIN takes any valid pin, mapped or not (R81): the range check is its only one. -/
theorem exec_mappin_performs {s : State} {pin : Pin} (hrun : s.halted = false) (hpin : pin.toNat ≤ 53) :
    exec (.mappin pin) s = .next (s.respond .ok (some (pinConfig pin))) := by
  rw [exec_mappin]
  exact runCommand_performs _ _ hrun (by rw [failedCheck_mappin, if_neg (by omega)])

/-- Settles O20: MAPPIN passes its check and answers the signals of the pin. -/
theorem mappinAnswersPinConfig : Obligations.MappinAnswersPinConfig := by
  intro s pin hrun hpin
  exact ⟨pinConfig pin, exec_mappin_performs hrun hpin, pinConfig_fselIdx hpin, pinConfig_fselShift, rfl,
    rfl, rfl, bitMask_toNat hpin⟩

end Sys2Proof.Machine
end

section
/-! SUPPORT. MAPREG and the rejections (42_register_controller R90; 60_exceptions R113 to R120, R124): the check
that fails gives the status, and the status is all that is left of the command. -/

namespace Sys2Proof.Machine

/-! ### MAPREG -/

/-- Settles O21: both checks of MAPREG pass. -/
theorem mapregMaps : Obligations.MapregMaps := by
  intro s ignored hrun hmap hacq
  exact runCommand_performs _ _ hrun (by simp [failedCheck_mapreg, hmap, hacq])

/-- Settles O22: the acquisition is the check that fails. -/
theorem failedMapregHalts : Obligations.FailedMapregHalts := by
  intro s ignored hrun hmap hacq
  exact runCommand_fatal _ _ hrun (by simp [failedCheck_mapreg, hmap, hacq])

/-- Settles O23: the mapping is checked before the acquisition. -/
theorem secondMapregRejected : Obligations.SecondMapregRejected := by
  intro s ignored hrun hmap
  exact runCommand_rejects _ _ hrun (by simp [failedCheck_mapreg, hmap]) nofun

/-! ### The bank check and the mapping check -/

theorem runCommand_rejects_highPin {op : RcOp} {pin : Pin} {s : State} (perform : State → State)
    (cfg : Option PinConfig) (hop : op = .setpin ∨ op = .clrpin) (hrun : s.halted = false)
    (hlow : 32 ≤ pin.toNat) (hhigh : pin.toNat ≤ 53) :
    runCommand op pin perform cfg s = .next (s.respond .pinBank none) :=
  runCommand_rejects perform cfg hrun
    (by rw [failedCheck_level hop, if_neg (by omega), if_pos (by omega)]) nofun

theorem runCommand_rejects_unmapped_level {op : RcOp} {pin : Pin} {s : State} (perform : State → State)
    (cfg : Option PinConfig) (hop : op = .setpin ∨ op = .clrpin) (hrun : s.halted = false)
    (hmap : s.mapped = false) (hpin : pin.toNat ≤ 31) :
    runCommand op pin perform cfg s = .next (s.respond .notMapped none) :=
  runCommand_rejects perform cfg hrun
    (by rw [failedCheck_level hop, if_neg (by omega), if_neg (by omega), if_pos hmap]) nofun

theorem runCommand_rejects_unmapped_configure {op : RcOp} {pin : Pin} {s : State} (perform : State → State)
    (cfg : Option PinConfig) (hop : op = .cfgout ∨ op = .cfgouts) (hrun : s.halted = false)
    (hmap : s.mapped = false) (hpin : pin.toNat ≤ 53) :
    runCommand op pin perform cfg s = .next (s.respond .notMapped none) :=
  runCommand_rejects perform cfg hrun
    (by rw [failedCheck_configure hop, if_neg (by omega), if_pos hmap]) nofun

/-- Settles O40: the mapping is checked after the pin, and MAPPIN does not check it. -/
theorem unmappedCommandRejected : Obligations.UnmappedCommandRejected := by
  refine fun s pin hrun hmap => ⟨fun hpin => ⟨?_, ?_⟩, fun hpin => ⟨?_, ?_⟩, fun t h hresp => ?_⟩
  · exact runCommand_rejects_unmapped_configure _ _ (.inl rfl) hrun hmap hpin
  · exact runCommand_rejects_unmapped_configure _ _ (.inr rfl) hrun hmap hpin
  · exact runCommand_rejects_unmapped_level _ _ (.inl rfl) hrun hmap hpin
  · exact runCommand_rejects_unmapped_level _ _ (.inr rfl) hrun hmap hpin
  · rw [exec_mappin] at h
    have hcheck : failedCheck .mappin pin s = some .notMapped := failedCheck_of_answer h rfl hresp nofun
    rw [failedCheck_mappin] at hcheck
    split at hcheck <;> cases hcheck

/-! ### What a rejection leaves (R124) -/

/-- Settles O42: the answer tells which of the three ways the command ended. -/
theorem rejectionLeavesNoTrace : Obligations.RejectionLeavesNoTrace := by
  intro i s t a hi h hresp
  obtain ⟨op, pin, rfl⟩ := exists_commandInstr hi
  rw [exec_commandInstr] at h
  obtain ⟨-, ⟨-, rfl⟩ | ⟨-, rfl⟩ | ⟨st, hst, -, rfl⟩⟩ := runCommand_cases h
  · obtain rfl : ⟨.ok, answeredConfig op pin⟩ = a := by simpa using hresp
    exact ⟨fun hok => absurd rfl hok, nofun⟩
  · obtain rfl : ⟨.fatalAcq, none⟩ = a := by simpa using hresp
    exact ⟨fun _ hfatal => absurd rfl hfatal, fun _ => rfl⟩
  · obtain rfl : ⟨st, none⟩ = a := by simpa using hresp
    exact ⟨fun _ _ => rfl, fun hfatal => absurd hfatal hst⟩

/-! ### The numbers of the status codes (R113) -/

/-- The status of a code, where it is one. -/
def statusOfCode (code : BitVec 3) : Option Status :=
  [Status.ok, .illegalCmd, .pinRange, .pinBank, .notMapped, .alreadyMapped, .fatalAcq][code.toNat]?

theorem statusOfCode_statusCode (st : Status) : statusOfCode (statusCode st) = some st := by
  cases st <;> rfl

/-- Settles O53: a status is read back from its code, and none from 7. -/
theorem statusNumbers : Obligations.StatusNumbers := by
  refine ⟨rfl, rfl, rfl, rfl, rfl, rfl, rfl, fun a b h => ?_, fun a h => ?_⟩
  · exact Option.some.inj (by rw [← statusOfCode_statusCode a, h, statusOfCode_statusCode])
  · have hnone : statusOfCode (statusCode a) = none := by rw [h]; rfl
    cases (statusOfCode_statusCode a).symm.trans hnone

end Sys2Proof.Machine
end

section
/-! SUPPORT. CFGOUT and CFGOUTS (42_register_controller R91 to R93, R97): the two words they write, bit by bit, and
the one read and one write that every configure operation makes. -/

namespace Sys2Proof.Machine

/-! ### The written words, bit by bit -/

/-- Of the word read, CFGOUT sets the low bit of the field. -/
theorem getLsbD_orOutputCode (pin : Pin) (old : Word) (b : Nat) :
    (orOutputCode pin old).getLsbD b = (old.getLsbD b || decide (b = pin.toNat % 10 * 3)) := by
  rw [orOutputCode_eq]
  simp only [BitVec.getLsbD_or, BitVec.getLsbD_shiftLeft, BitVec.getLsbD_one]
  grind

/-- The three bits of the pin's field (R97). -/
theorem getLsbD_fieldMask (pin : Pin) (b : Nat) :
    (7#32 <<< (pin.toNat % 10 * 3)).getLsbD b =
      decide (pin.toNat % 10 * 3 ≤ b ∧ b < pin.toNat % 10 * 3 + 3) := by
  rw [BitVec.getLsbD_shiftLeft, BitVec.getLsbD_ofNat, show 7 = 2 ^ 3 - 1 from rfl, Nat.testBit_two_pow_sub_one]
  grind

/-- Of the word read, CFGOUTS sets the low bit of the field and clears its two others. -/
theorem getLsbD_replaceFieldByOutput (pin : Pin) (old : Word) (b : Nat) :
    (replaceFieldByOutput pin old).getLsbD b =
      if pin.toNat % 10 * 3 ≤ b ∧ b < pin.toNat % 10 * 3 + 3 then decide (b = pin.toNat % 10 * 3)
      else old.getLsbD b := by
  rw [replaceFieldByOutput_eq, BitVec.getLsbD_or, BitVec.getLsbD_and, BitVec.getLsbD_not, getLsbD_fieldMask,
    BitVec.getLsbD_shiftLeft, BitVec.getLsbD_one]
  grind

/-- Neither operation changes a bit outside the field. -/
theorem getLsbD_outside_field {change : Word → Word} {pin : Pin}
    (hchange : change = orOutputCode pin ∨ change = replaceFieldByOutput pin) (old : Word) {b : Nat}
    (hb : b < pin.toNat % 10 * 3 ∨ pin.toNat % 10 * 3 + 3 ≤ b) : (change old).getLsbD b = old.getLsbD b := by
  rcases hchange with rfl | rfl
  · rw [getLsbD_orOutputCode, decide_eq_false (by omega), Bool.or_false]
  · rw [getLsbD_replaceFieldByOutput, if_neg (by omega)]

/-- The field CFGOUT leaves: the field it found, its low bit set (R92). -/
theorem field_orOutputCode (pin : Pin) (old : Word) :
    (orOutputCode pin old).extractLsb' (pin.toNat % 10 * 3) 3 =
      old.extractLsb' (pin.toNat % 10 * 3) 3 ||| 1#3 := by
  apply BitVec.eq_of_getLsbD_eq
  intro b hb
  simp only [BitVec.getLsbD_extractLsb', BitVec.getLsbD_or, getLsbD_orOutputCode, BitVec.getLsbD_one]
  grind

/-- The field CFGOUTS leaves: the output code (R97). -/
theorem field_replaceFieldByOutput (pin : Pin) (old : Word) :
    (replaceFieldByOutput pin old).extractLsb' (pin.toNat % 10 * 3) 3 = 1#3 := by
  apply BitVec.eq_of_getLsbD_eq
  intro b hb
  simp only [BitVec.getLsbD_extractLsb', getLsbD_replaceFieldByOutput, BitVec.getLsbD_one]
  grind

/-- A field holds the output code after the OR exactly where it was 0 or 1 (R92). -/
theorem field_or_one_eq_one_iff : ∀ f : BitVec 3, f ||| 1#3 = 1#3 ↔ f = 0#3 ∨ f = 1#3 := by
  decide

theorem orOutputCode_orOutputCode (pin : Pin) (old : Word) :
    orOutputCode pin (orOutputCode pin old) = orOutputCode pin old := by
  rw [orOutputCode, orOutputCode, BitVec.or_assoc, BitVec.or_self]

theorem orOutputCode_replaceFieldByOutput (pin : Pin) (old : Word) :
    orOutputCode pin (replaceFieldByOutput pin old) = replaceFieldByOutput pin old := by
  rw [orOutputCode, replaceFieldByOutput, BitVec.or_assoc, BitVec.or_self]

theorem replaceFieldByOutput_replaceFieldByOutput (pin : Pin) (old : Word) :
    replaceFieldByOutput pin (replaceFieldByOutput pin old) = replaceFieldByOutput pin old := by
  apply BitVec.eq_of_getLsbD_eq
  intro b _
  simp only [getLsbD_replaceFieldByOutput]
  split_ifs <;> rfl

/-! ### A configure operation whose checks pass -/

/-- The state after a configure operation of FSEL `k`: the register changed, one read and one write. -/
def State.configured (s : State) (k : Fin 6) (change : Word → Word) : State :=
  { s with fsel := s.fsel.set k (change s.fsel[k])
           bus := s.bus ++ [.read (regIndex (.fsel k)) s.fsel[k],
                            .write (regIndex (.fsel k)) (change s.fsel[k])]
           responses := s.responses ++ [⟨.ok, none⟩] }

theorem configured_fsel_same (s : State) (k : Fin 6) (change : Word → Word) :
    (s.configured k change).fsel[k] = change s.fsel[k] := by
  simp [State.configured]

theorem configured_fsel_ne (s : State) {k k' : Fin 6} (change : Word → Word) (h : k' ≠ k) :
    (s.configured k change).fsel[k'] = s.fsel[k'] := by
  have hval : k.val ≠ k'.val := fun he => h (Fin.ext he.symm)
  simp [State.configured, Vector.getElem_set_ne, hval]

/-- The window shows the change at the register's index. -/
theorem configured_peek_same (s : State) (k : Fin 6) (change : Word → Word) :
    (s.configured k change).peek (regIndex (.fsel k)) = change (s.peek (regIndex (.fsel k))) := by
  rw [peek_fsel k.isLt, peek_fsel k.isLt]
  exact configured_fsel_same s k change

theorem configured_peek_ne (s : State) {k : Fin 6} {j : RegIdx} (change : Word → Word) (h : j.val ≠ k.val) :
    (s.configured k change).peek j = s.peek j := by
  have hdraws : (s.configured k change).draws = s.draws := rfl
  exact peek_congr hdraws j fun k' hk' => configured_fsel_ne s change fun hkk => h (by rw [← hk', hkk])

theorem configure_performs {op : RcOp} {pin : Pin} {change : Word → Word} {s : State} {k : Fin 6}
    (hop : op = .cfgout ∨ op = .cfgouts) (hrun : s.halted = false) (hmap : s.mapped = true)
    (hk : k.val = pin.toNat / 10) (hpin : pin.toNat ≤ 53) :
    runCommand op pin (readModifyWrite pin change) none s = .next (s.configured k change) := by
  have hcheck : failedCheck op pin s = none := by
    rw [failedCheck_configure hop, if_neg (by omega), if_neg (by simp [hmap])]
  rw [runCommand_performs _ _ hrun hcheck, readModifyWrite_eq _ _ hk]
  rfl

/-- A configure operation that ends in a next state rewrites its pin's register on a mapped RC, or is rejected. -/
theorem configure_cases {op : RcOp} {pin : Pin} {change : Word → Word} {s t : State}
    (hop : op = .cfgout ∨ op = .cfgouts)
    (h : runCommand op pin (readModifyWrite pin change) none s = .next t) :
    (∃ k : Fin 6, k.val = pin.toNat / 10 ∧ pin.toNat ≤ 53 ∧ s.mapped = true ∧ t = s.configured k change) ∨
    ((53 < pin.toNat ∨ s.mapped = false) ∧ ∃ st, t = s.respond st none) := by
  by_cases hok : pin.toNat ≤ 53 ∧ s.mapped = true
  · obtain ⟨hpin, hmap⟩ := hok
    obtain ⟨hrun, -⟩ := runCommand_cases h
    have hk : pin.toNat / 10 < 6 := by omega
    rw [configure_performs (k := ⟨_, hk⟩) hop hrun hmap rfl hpin] at h
    exact .inl ⟨⟨_, hk⟩, rfl, hpin, hmap, (Host.Outcome.next.inj h).symm⟩
  · have hfails : 53 < pin.toNat ∨ s.mapped = false := by
      by_cases hpin : pin.toNat ≤ 53
      · exact .inr (by simpa [hpin] using hok)
      · exact .inl (by omega)
    refine .inr ⟨hfails, ?_⟩
    obtain ⟨-, ⟨hc, -⟩ | ⟨hc, -⟩ | ⟨st, -, -, ht⟩⟩ := runCommand_cases h
    · obtain ⟨hrange, -, hmapped, -⟩ := (failedCheck_eq_none_iff ..).1 hc
      rcases hop with rfl | rfl <;> exact absurd ⟨hrange rfl, hmapped rfl⟩ hok
    · obtain ⟨rfl, -⟩ := failedCheck_fatal hc
      rcases hop with h | h <;> cases h
    · exact ⟨st, ht⟩

/-- A second configure operation of the pin changes no register where it keeps every word the first one writes:
it is performed only where the first one was. -/
theorem configure_again {op op' : RcOp} {pin : Pin} {change change' : Word → Word} {s t u : State}
    (hop : op = .cfgout ∨ op = .cfgouts) (hop' : op' = .cfgout ∨ op' = .cfgouts)
    (hkeep : ∀ w, change' (change w) = change w)
    (h : runCommand op pin (readModifyWrite pin change) none s = .next t)
    (h' : runCommand op' pin (readModifyWrite pin change') none t = .next u) : u.fsel = t.fsel := by
  rcases configure_cases hop' h' with ⟨k, hk, hpin, hmap, rfl⟩ | ⟨-, st, rfl⟩
  · rcases configure_cases hop h with ⟨k', hk', -, -, rfl⟩ | ⟨hfails, st, rfl⟩
    · obtain rfl : k = k' := Fin.ext (hk.trans hk'.symm)
      have hword := configured_fsel_same s k change
      rw [State.configured, hword, hkeep, ← hword]
      exact Vector.set_getElem_self _
    · rcases hfails with hfails | hfails
      · omega
      · rw [State.respond_mapped, hfails] at hmap
        cases hmap
  · rfl

/-! ### The statements about CFGOUT and CFGOUTS -/

/-- The index of FSEL `k` in the window is `k` (R35). -/
theorem regIndex_fsel_eq {k : Fin 6} {j : RegIdx} (h : k.val = j.val) : regIndex (.fsel k) = j :=
  Fin.ext h

theorem exec_cfgout_performs {s : State} {pin : Pin} {k : Fin 6} {j : RegIdx} (hrun : s.halted = false)
    (hmap : s.mapped = true) (hpin : pin.toNat ≤ 53) (hk : k.val = pin.toNat / 10)
    (hj : j.val = pin.toNat / 10) :
    exec (.cfgout pin) s =
      .next { s with fsel := s.fsel.set k (s.fsel[k] ||| 1#32 <<< (pin.toNat % 10 * 3)) k.isLt
                     bus := s.bus ++ [.read j s.fsel[k],
                                      .write j (s.fsel[k] ||| 1#32 <<< (pin.toNat % 10 * 3))]
                     responses := s.responses ++ [⟨.ok, none⟩] } := by
  rw [exec_cfgout, configure_performs (.inl rfl) hrun hmap hk hpin, State.configured,
    regIndex_fsel_eq (hk.trans hj.symm), orOutputCode_eq]

/-- Settles O24: the checks are the pin's range and the mapping; scenario D is pin 17 on a zero register. -/
theorem cfgoutOrsTheOutputCode : Obligations.CfgoutOrsTheOutputCode := by
  refine ⟨fun s pin k j hrun hmap hpin hk hj => exec_cfgout_performs hrun hmap hpin hk hj,
    fun s pin hrun hpin => ?_, fun s pin hrun hmap hpin => ?_, fun s hrun hmap hzero => ?_⟩
  · exact runCommand_rejects_outOfRange _ _ rfl hrun hpin
  · exact runCommand_rejects_unmapped_configure _ _ (.inl rfl) hrun hmap hpin
  · have h17 := exec_cfgout_performs (pin := 17) (k := 1) (j := 1) hrun hmap (by decide) rfl rfl
    have hk : s.fsel[(1 : Fin 6)] = 0x00000000#32 := hzero
    rw [hk] at h17
    exact h17

/-- Settles O28: the one read and one write of a configure operation, the written word in the spec's numbers. -/
theorem cfgoutsReplacesTheField : Obligations.CfgoutsReplacesTheField := by
  intro s pin k j hrun hmap hpin hk hj
  rw [exec_cfgouts, configure_performs (.inr rfl) hrun hmap hk hpin, State.configured,
    regIndex_fsel_eq (hk.trans hj.symm), replaceFieldByOutput_eq]

/-- Settles O25: the field of the written word, and the eight values a field can have. -/
theorem cfgoutLeavesFieldOrOne : Obligations.CfgoutLeavesFieldOrOne := by
  intro s pin k hrun hmap hpin hk
  have hfield := field_orOutputCode pin s.fsel[k]
  rw [← configured_fsel_same s k (orOutputCode pin)] at hfield
  refine ⟨_, configure_performs (.inl rfl) hrun hmap hk hpin, hfield, ?_⟩
  rw [hfield]
  exact field_or_one_eq_one_iff _

/-- Settles O29: the field of the written word, its other bits, and the registers not written. -/
theorem cfgoutsLeavesFieldOne : Obligations.CfgoutsLeavesFieldOne := by
  intro s pin k hrun hmap hpin hk
  have hword := configured_fsel_same s k (replaceFieldByOutput pin)
  refine ⟨_, configure_performs (.inr rfl) hrun hmap hk hpin, ?_, fun b hb => ?_, fun k' hk' => ?_⟩
  · rw [hword]
    exact field_replaceFieldByOutput _ _
  · rw [hword]
    exact getLsbD_outside_field (.inr rfl) _ hb
  · exact configured_fsel_ne _ _ hk'

/-- Settles O26: a bit that changes is in the register written, and the OR changes its one bit. -/
theorem cfgoutChangesOneBitAtMost : Obligations.CfgoutChangesOneBitAtMost := by
  intro s t pin k b h hne
  rw [exec_cfgout] at h
  rcases configure_cases (.inl rfl) h with ⟨k', hk', -, -, rfl⟩ | ⟨-, st, rfl⟩
  · by_cases hkk : k = k'
    · subst hkk
      rw [configured_fsel_same, getLsbD_orOutputCode] at hne ⊢
      by_cases hb : b = pin.toNat % 10 * 3
      · cases hold : s.fsel[k].getLsbD b with
        | false => exact ⟨hk', hb, rfl, by simp [hb]⟩
        | true => rw [hold] at hne; exact absurd rfl hne
      · simp [hb] at hne
    · rw [configured_fsel_ne _ _ hkk] at hne
      exact absurd rfl hne
  · exact absurd rfl hne

/-- Settles O27: what the second operation would write is what the register holds. -/
theorem repeatedConfigureChangesNothing : Obligations.RepeatedConfigureChangesNothing := by
  intro s t u pin
  refine ⟨fun h h' => ?_, fun h h' => ?_, fun h h' => ?_⟩
  · exact configure_again (.inl rfl) (.inl rfl) (orOutputCode_orOutputCode pin) h h'
  · exact configure_again (.inr rfl) (.inr rfl) (replaceFieldByOutput_replaceFieldByOutput pin) h h'
  · exact configure_again (.inr rfl) (.inl rfl) (orOutputCode_replaceFieldByOutput pin) h h'

end Sys2Proof.Machine
end

section
/-! SUPPORT. SETPIN and CLRPIN (42_register_controller R94 to R96), and the frames of the six commands (10_state
R15 to R25): what each leaves as it was, however it is answered. -/

namespace Sys2Proof.Machine

/-! ### The level commands -/

theorem levelNamed_setpin_getD (q : Nat) (pin : Pin) (b : Bool) :
    (levelNamed q (.setpin pin)).getD b = if q = pin.toNat then true else b := by
  by_cases h : q = pin.toNat
  · simp [levelNamed, h]
  · simp [levelNamed, h, Ne.symm h]

theorem levelNamed_clrpin_getD (q : Nat) (pin : Pin) (b : Bool) :
    (levelNamed q (.clrpin pin)).getD b = if q = pin.toNat then false else b := by
  by_cases h : q = pin.toNat
  · simp [levelNamed, h]
  · simp [levelNamed, h, Ne.symm h]

/-- Settles O30: the mask of a bank 0 pin, written to SET. -/
theorem setpinRaisesThePin : Obligations.SetpinRaisesThePin := by
  intro s pin hrun hmap hpin
  rw [exec_setpin_performs hrun hmap hpin, levelMask_eq hpin]
  rfl

/-- Settles O31: the mask of a bank 0 pin, written to CLR; the checks in their order. -/
theorem clrpinLowersThePin : Obligations.ClrpinLowersThePin := by
  refine ⟨fun s pin hrun hmap hpin => ?_, fun s pin hrun hpin => ?_, fun s pin hrun hlow hhigh => ?_,
    fun s pin hrun hmap hpin => ?_⟩
  · rw [exec_clrpin_performs hrun hmap hpin, levelMask_eq hpin]
    rfl
  · exact runCommand_rejects_outOfRange _ _ rfl hrun hpin
  · exact runCommand_rejects_highPin _ _ (.inr rfl) hrun hlow hhigh
  · exact runCommand_rejects_unmapped_level _ _ (.inr rfl) hrun hmap hpin

/-- Settles O32: raising and lowering the bits of one mask are idempotent. -/
theorem levelCommandsMoveOnePin : Obligations.LevelCommandsMoveOnePin := by
  refine fun s pin hrun hmap hpin => ⟨?_, ?_⟩
  · refine ⟨_, _, exec_setpin_performs hrun hmap hpin, exec_setpin_performs hrun (by simpa) hpin,
      ?_, fun q _ => ?_⟩
    · exact (BitVec.or_assoc _ _ _).trans (congrArg _ BitVec.or_self)
    · exact (getLsbD_or_levelMask s.out q hpin).trans (levelNamed_setpin_getD q pin _)
  · refine ⟨_, _, exec_clrpin_performs hrun hmap hpin, exec_clrpin_performs hrun (by simpa) hpin,
      ?_, fun q hq => ?_⟩
    · exact (BitVec.and_assoc _ _ _).trans (congrArg _ BitVec.and_self)
    · exact (getLsbD_and_not_levelMask s.out hq hpin).trans (levelNamed_clrpin_getD q pin _)

/-- Settles O39: only the level commands check the bank. -/
theorem highPinRejectedByLevelCommands : Obligations.HighPinRejectedByLevelCommands := by
  intro s pin hrun hlow hhigh
  have hk : pin.toNat / 10 < 6 := by omega
  refine ⟨runCommand_rejects_highPin _ _ (.inl rfl) hrun hlow hhigh,
    runCommand_rejects_highPin _ _ (.inr rfl) hrun hlow hhigh,
    ⟨_, _, exec_mappin_performs hrun hhigh, rfl⟩, fun hmap => ⟨?_, ?_⟩⟩
  · exact ⟨_, configure_performs (k := ⟨_, hk⟩) (.inl rfl) hrun hmap rfl hhigh, rfl⟩
  · exact ⟨_, configure_performs (k := ⟨_, hk⟩) (.inr rfl) hrun hmap rfl hhigh, rfl⟩

/-! ### The flags -/

/-- No command but MAPREG changes a flag (R16, R17). -/
theorem command_flags {op : RcOp} (hop : op ≠ .mapreg) {pin : Pin} {s t : State}
    (h : exec (commandInstr op pin) s = .next t) : t.mapped = s.mapped ∧ t.halted = s.halted := by
  rw [exec_commandInstr] at h
  obtain ⟨-, ⟨-, rfl⟩ | ⟨hc, -⟩ | ⟨st, -, -, rfl⟩⟩ := runCommand_cases h
  · exact ⟨performed_mapped hop pin s, performed_halted op pin s⟩
  · obtain ⟨hmapreg, -⟩ := failedCheck_fatal hc
    exact absurd hmapreg hop
  · exact ⟨rfl, rfl⟩

/-! ### The frames -/

/-- Settles O35: neither performs a transaction, and MAPPIN performs nothing at all. -/
theorem mappingCommandsFrame : Obligations.MappingCommandsFrame := by
  intro i s t hi h
  obtain ⟨op, pin, hop, rfl⟩ : ∃ op pin, (op = .mappin ∨ op = .mapreg) ∧ i = commandInstr op pin := by
    rcases hi with ⟨pin, rfl⟩ | ⟨ignored, rfl⟩
    · exact ⟨.mappin, pin, .inl rfl, rfl⟩
    · exact ⟨.mapreg, ignored, .inr rfl, rfl⟩
  have hperipheral : t.fsel = s.fsel ∧ t.out = s.out ∧ t.bus = s.bus := by
    rw [exec_commandInstr] at h
    obtain ⟨-, ⟨-, rfl⟩ | ⟨-, rfl⟩ | ⟨st, -, -, rfl⟩⟩ := runCommand_cases h
    · rcases hop with rfl | rfl <;> exact ⟨rfl, rfl, rfl⟩
    · exact ⟨rfl, rfl, rfl⟩
    · exact ⟨rfl, rfl, rfl⟩
  obtain ⟨hfsel, hout, hbus⟩ := hperipheral
  obtain ⟨hacq, hdraws, hpending, hevents, hanswer⟩ := command_frame h
  refine ⟨?_, hfsel, hout, hacq, hdraws, hpending, hevents, hanswer, hbus,
    fun j => peek_congr hdraws j fun k _ => by rw [hfsel]⟩
  rintro ⟨pin', hpin'⟩
  rcases hop with rfl | rfl
  · exact command_flags (op := .mappin) nofun h
  · cases hpin'

/-- Settles O36: a configure operation rewrites the field of one register, or is rejected. -/
theorem configureFrame : Obligations.ConfigureFrame := by
  intro i pin s t hi h
  obtain ⟨op, change, hop, hchange, rfl, hrun⟩ : ∃ op change, (op = .cfgout ∨ op = .cfgouts) ∧
      (change = orOutputCode pin ∨ change = replaceFieldByOutput pin) ∧ i = commandInstr op pin ∧
      runCommand op pin (readModifyWrite pin change) none s = .next t := by
    rcases hi with rfl | rfl
    · exact ⟨.cfgout, _, .inl rfl, .inl rfl, rfl, h⟩
    · exact ⟨.cfgouts, _, .inr rfl, .inr rfl, rfl, h⟩
  obtain ⟨hmapped, hhalted⟩ := command_flags (by rcases hop with rfl | rfl <;> nofun) h
  obtain ⟨hacq, hdraws, hpending, hevents, hanswer⟩ := command_frame h
  obtain ⟨hout, -⟩ := configure_independent_of_out s.out hrun
  refine ⟨hmapped, hhalted, hout, hacq, hdraws, hpending, hevents, hanswer, ?_⟩
  rcases configure_cases hop hrun with ⟨k, hk, -, -, rfl⟩ | ⟨-, st, rfl⟩
  · have hother (j : RegIdx) (hj : j.val ≠ pin.toNat / 10) : (s.configured k change).peek j = s.peek j :=
      configured_peek_ne s change (by rwa [hk])
    refine ⟨hother, fun j b hb => ?_⟩
    by_cases hj : j.val = pin.toNat / 10
    · obtain rfl : regIndex (.fsel k) = j := regIndex_fsel_eq (hk.trans hj.symm)
      rw [configured_peek_same]
      exact getLsbD_outside_field hchange _ hb
    · rw [hother j hj]
  · exact ⟨fun _ _ => rfl, fun _ _ _ => rfl⟩

/-- A write of a level mask leaves every other bit of the latch. -/
theorem busWrite_levelMask_out_other {r : Reg} {pin : Pin} {q : Nat} (s : State) (hr : r = .set ∨ r = .clr)
    (hpin : pin.toNat ≤ 31) (hq : q ≠ pin.toNat) :
    (busWrite r (levelMask pin) s).out.getLsbD q = s.out.getLsbD q := by
  by_cases hq32 : q < 32
  · rcases hr with rfl | rfl
    · exact (getLsbD_or_levelMask s.out q hpin).trans (by rw [levelNamed_setpin_getD, if_neg hq])
    · exact (getLsbD_and_not_levelMask s.out hq32 hpin).trans (by rw [levelNamed_clrpin_getD, if_neg hq])
  · rw [BitVec.getLsbD_of_ge _ _ (by omega), BitVec.getLsbD_of_ge _ _ (by omega)]

/-- Settles O37: a level command writes its pin's mask to SET or CLR, or is rejected. -/
theorem levelFrame : Obligations.LevelFrame := by
  intro i pin s t hi h
  obtain ⟨op, r, hop, hr, rfl, hrun⟩ : ∃ op r, (op = .setpin ∨ op = .clrpin) ∧ (r = .set ∨ r = .clr) ∧
      i = commandInstr op pin ∧ runCommand op pin (busWrite r (levelMask pin)) none s = .next t := by
    rcases hi with rfl | rfl
    · exact ⟨.setpin, .set, .inl rfl, .inl rfl, rfl, h⟩
    · exact ⟨.clrpin, .clr, .inr rfl, .inr rfl, rfl, h⟩
  obtain ⟨hmapped, hhalted⟩ := command_flags (by rcases hop with rfl | rfl <;> nofun) h
  obtain ⟨hacq, hdraws, hpending, hevents, hanswer⟩ := command_frame h
  have hlatch : t.fsel = s.fsel ∧ ∀ q : Nat, q ≠ pin.toNat → t.out.getLsbD q = s.out.getLsbD q := by
    obtain ⟨-, ⟨hc, rfl⟩ | ⟨-, rfl⟩ | ⟨st, -, -, rfl⟩⟩ := runCommand_cases hrun
    · obtain ⟨-, hbank, -⟩ := (failedCheck_eq_none_iff ..).1 hc
      have hpin : pin.toNat ≤ 31 := hbank (by rcases hop with rfl | rfl <;> rfl)
      exact ⟨by rcases hr with rfl | rfl <;> rfl, fun q hq => busWrite_levelMask_out_other s hr hpin hq⟩
    · exact ⟨rfl, fun _ _ => rfl⟩
    · exact ⟨rfl, fun _ _ => rfl⟩
  obtain ⟨hfsel, hout⟩ := hlatch
  exact ⟨hmapped, hhalted, hfsel, hacq, hdraws, hpending, hevents, hanswer,
    fun j => peek_congr hdraws j fun k _ => by rw [hfsel], hout⟩

end Sys2Proof.Machine
end

section
/-! SUPPORT. Safe states (10_state R16 to R18, 20_memory R39, 30_encoding R54 and R60, 60_exceptions R119): each
operation on the state keeps them, and so every step does. -/

namespace Sys2Proof.Machine

/-! ### The outputs have the spec's forms -/

theorem eventWordAllowed_eventWord (ev : DecodedEvent) : EventWordAllowed (eventWord ev) := by
  have htop : (eventWord ev).extractLsb' 26 6 = 0#6 := by
    cases ev with
    | unknown => rfl
    | axis index value | button index value =>
      exact (BitVec.extractLsb'_append_eq_of_le (by decide)).trans <|
        (BitVec.extractLsb'_append_eq_of_le (by decide)).trans <|
          (BitVec.extractLsb'_append_eq_of_le (by decide)).trans BitVec.extractLsb'_eq_self
  refine ⟨htop, ?_, ?_⟩ <;> rw [eventWord_tag]
  · exact tag_ne_three ev
  · exact (eventWord_eq_zero_iff ev).2

theorem responseAllowed_none (st : Status) : ResponseAllowed ⟨st, none⟩ := nofun

theorem responseAllowed_pinConfig {pin : Pin} (h : pin.toNat ≤ 53) :
    ResponseAllowed ⟨.ok, some (pinConfig pin)⟩ := by
  rintro cfg hcfg
  obtain rfl : pinConfig pin = cfg := Option.some.inj hcfg
  rw [pinConfig_fselIdx h, pinConfig_fselShift]
  exact ⟨rfl, by omega, by omega, by omega, rfl, rfl, rfl, pin.toNat, h, rfl⟩

/-- The answer to a command whose checks pass: MAPPIN alone has a PinConfig, of a valid pin. -/
theorem responseAllowed_answeredConfig {op : RcOp} {pin : Pin} {s : State} (h : failedCheck op pin s = none) :
    ResponseAllowed ⟨.ok, answeredConfig op pin⟩ := by
  obtain ⟨hrange, -⟩ := (failedCheck_eq_none_iff ..).1 h
  cases op with
  | mappin => exact responseAllowed_pinConfig (hrange rfl)
  | _ => exact responseAllowed_none .ok

/-! ### The operations on the state -/

section
variable {s : State} (hs : s.Safe)
include hs

theorem State.Safe.takingCommand (rest : List Input) (ok : Bool) : (s.takingCommand rest ok).Safe :=
  ⟨hs.flags, hs.bus, hs.busAfterMapping, hs.events, hs.responses, hs.fatal⟩

theorem State.Safe.emit (ev : DecodedEvent) : (s.emit (eventWord ev)).Safe where
  flags := hs.flags
  bus := hs.bus
  busAfterMapping := hs.busAfterMapping
  events := by
    rw [State.emit_events, List.forall_mem_append, List.forall_mem_singleton]
    exact ⟨hs.events, eventWordAllowed_eventWord ev⟩
  responses := hs.responses
  fatal := hs.fatal

theorem State.Safe.respond {st : Status} {cfg : Option PinConfig} (hst : st ≠ .fatalAcq)
    (hallowed : ResponseAllowed ⟨st, cfg⟩) : (s.respond st cfg).Safe where
  flags := hs.flags
  bus := hs.bus
  busAfterMapping := hs.busAfterMapping
  events := hs.events
  responses := by
    rw [State.respond_responses, List.forall_mem_append, List.forall_mem_singleton]
    exact ⟨hs.responses, hallowed⟩
  fatal := by simpa [or_and_right, exists_or, hst] using hs.fatal

/-- HALTED and the answer FATAL_ACQ come together, on an unmapped RC. -/
theorem State.Safe.raiseFatalAcq (hmap : s.mapped = false) : (s.setHalted.respond .fatalAcq none).Safe where
  flags := by simp [hmap]
  bus := hs.bus
  busAfterMapping := hs.busAfterMapping
  events := hs.events
  responses := by
    rw [State.respond_responses, List.forall_mem_append, List.forall_mem_singleton]
    exact ⟨hs.responses, responseAllowed_none _⟩
  fatal := by simp

theorem State.Safe.setMapped (hrun : s.halted = false) : s.setMapped.Safe where
  flags := by simp [hrun]
  bus := hs.bus
  busAfterMapping := fun _ => rfl
  events := hs.events
  responses := hs.responses
  fatal := hs.fatal

/-- Once mapped, an allowed transaction may be entered. -/
theorem State.Safe.record {e : BusEvent} (hmap : s.mapped = true) (he : BusEventAllowed e) :
    (s.record e).Safe where
  flags := hs.flags
  bus := by
    rw [State.record_bus, List.forall_mem_append, List.forall_mem_singleton]
    exact ⟨hs.bus, he⟩
  busAfterMapping := fun _ => hmap
  events := hs.events
  responses := hs.responses
  fatal := hs.fatal

/-- No clause of safety reads the registers. -/
theorem State.Safe.store (r : Reg) (v : Word) : (s.store r v).Safe := by
  cases r <;> exact ⟨hs.flags, hs.bus, hs.busAfterMapping, hs.events, hs.responses, hs.fatal⟩

theorem State.Safe.busWrite {r : Reg} {v : Word} (hmap : s.mapped = true)
    (hallowed : BusEventAllowed (.write (regIndex r) v)) : (busWrite r v s).Safe :=
  (hs.store r v).record (by simpa) hallowed

theorem State.Safe.readModifyWrite (pin : Pin) (change : Word → Word) (hmap : s.mapped = true) :
    (readModifyWrite pin change s).Safe := by
  have hindex (k : Fin 6) : (regIndex (.fsel k)).val ≤ 5 := Nat.le_of_lt_succ k.isLt
  have hread : (busRead (fselReg pin) s).2.Safe :=
    hs.record (e := .read (regIndex (fselReg pin)) _) hmap (hindex _)
  exact hread.busWrite hmap (.inl (hindex _))

/-- What a command performs once its checks pass. -/
theorem State.Safe.performed {op : RcOp} {pin : Pin} (hrun : s.halted = false) (hc : failedCheck op pin s = none) :
    (performed op pin s).Safe := by
  obtain ⟨-, hbank, hmap, -⟩ := (failedCheck_eq_none_iff ..).1 hc
  have hmask (hop : usesBank op = true) : OneBit (levelMask pin) :=
    ⟨pin.toNat, Nat.lt_succ_of_le (hbank hop), levelMask_eq (hbank hop)⟩
  cases op with
  | mappin => exact hs
  | mapreg => exact hs.setMapped hrun
  | cfgout => exact hs.readModifyWrite pin _ (hmap rfl)
  | setpin => exact hs.busWrite (hmap rfl) (.inr ⟨.inl rfl, hmask rfl⟩)
  | clrpin => exact hs.busWrite (hmap rfl) (.inr ⟨.inr rfl, hmask rfl⟩)
  | cfgouts => exact hs.readModifyWrite pin _ (hmap rfl)

theorem State.Safe.exec {i : Instr} {t : State} (h : exec i s = .next t) : t.Safe := by
  cases hi : i.isRecord with
  | true =>
    obtain ⟨ev, hev⟩ := exec_record_event hi
    obtain rfl : s.emit (eventWord ev) = t := Host.Outcome.next.inj ((hev s).symm.trans h)
    exact hs.emit ev
  | false =>
    obtain ⟨op, pin, rfl⟩ := exists_commandInstr hi
    rw [exec_commandInstr] at h
    obtain ⟨hrun, ⟨hc, rfl⟩ | ⟨hc, rfl⟩ | ⟨st, hst, -, rfl⟩⟩ := runCommand_cases h
    · exact (hs.performed hrun hc).respond nofun (responseAllowed_answeredConfig hc)
    · obtain ⟨-, hmap, -⟩ := failedCheck_fatal hc
      exact hs.raiseFatalAcq hmap
    · exact hs.respond hst (responseAllowed_none st)

end

/-- A run that has given nothing out and set no flag is safe. -/
theorem safe_of_empty {s : State} (hmap : s.mapped = false) (hhalt : s.halted = false) (hbus : s.bus = [])
    (hevents : s.events = []) (hresp : s.responses = []) : s.Safe := by
  constructor <;> simp [hmap, hhalt, hbus, hevents, hresp]

/-- Settles O47: nothing has happened yet. -/
theorem resetIsSafe : Obligations.ResetIsSafe := safe_of_empty rfl rfl rfl rfl rfl

/-- Settles O46: a step waits, begins a run, performs an instruction or answers a reserved word. -/
theorem stepKeepsSafe : Obligations.StepKeepsSafe := by
  intro s t hs h
  rcases step_fetch_cases h with ⟨-, rfl⟩ | ⟨rest, -, rfl⟩ | ⟨i, rest, ok, -, hexec⟩ | ⟨rest, ok, -, rfl⟩
  · exact hs
  · exact safe_of_empty rfl rfl rfl rfl rfl
  · exact (hs.takingCommand rest ok).exec hexec
  · exact (hs.takingCommand rest ok).respond nofun (responseAllowed_none _)

/-! ### The flags over a step (R16, R17) -/

/-- How the flags go from `s` to `t` in an instruction: never down, and up by `i` being a MAPREG alone, which of
the two the acquisition decides. -/
structure FlagsRise (i : Instr) (s t : State) : Prop where
  keepsMapped : s.mapped = true → t.mapped = true
  keepsHalted : s.halted = true → t.halted = true
  mapped : s.mapped = false → t.mapped = true → (∃ ignored, i = .mapreg ignored) ∧ s.acqOk = true
  halted : s.halted = false → t.halted = true → (∃ ignored, i = .mapreg ignored) ∧ s.acqOk = false

theorem flagsRise_of_eq {i : Instr} {s t : State} (hmapped : t.mapped = s.mapped) (hhalted : t.halted = s.halted) :
    FlagsRise i s t where
  keepsMapped := hmapped.trans
  keepsHalted := hhalted.trans
  mapped := fun hs ht => nomatch (hmapped.trans hs).symm.trans ht
  halted := fun hs ht => nomatch (hhalted.trans hs).symm.trans ht

theorem flagsRise_exec {i : Instr} {s t : State} (h : exec i s = .next t) : FlagsRise i s t := by
  cases hi : i.isRecord with
  | true =>
    obtain ⟨e, he⟩ := exec_record hi
    obtain rfl : s.emit e = t := Host.Outcome.next.inj ((he s).symm.trans h)
    exact flagsRise_of_eq rfl rfl
  | false =>
    obtain ⟨op, pin, rfl⟩ := exists_commandInstr hi
    by_cases hop : op = .mapreg
    · subst hop
      rw [exec_commandInstr] at h
      obtain ⟨hrun, ⟨hc, rfl⟩ | ⟨hc, rfl⟩ | ⟨st, -, -, rfl⟩⟩ := runCommand_cases h
      · obtain ⟨-, -, -, hmapreg⟩ := (failedCheck_eq_none_iff ..).1 hc
        obtain ⟨-, hacq⟩ := hmapreg rfl
        exact ⟨fun _ => rfl, id, fun _ _ => ⟨⟨pin, rfl⟩, hacq⟩, fun _ hhalt => absurd hhalt (by simp [hrun])⟩
      · obtain ⟨-, hmap, hacq⟩ := failedCheck_fatal hc
        exact ⟨id, fun _ => rfl, fun _ hmapped => absurd hmapped (by simp [hmap]),
          fun _ _ => ⟨⟨pin, rfl⟩, hacq⟩⟩
      · exact flagsRise_of_eq rfl rfl
    · obtain ⟨hmapped, hhalted⟩ := command_flags hop h
      exact flagsRise_of_eq hmapped hhalted

/-- Settles O48: only the instruction of a step can raise a flag, and only a reset lowers one. -/
theorem flagsClearedByResetOnly : Obligations.FlagsClearedByResetOnly := by
  intro s t h
  rcases step_fetch_cases h with ⟨-, rfl⟩ | ⟨rest, hf, rfl⟩ | ⟨i, rest, ok, hf, hexec⟩ | ⟨rest, ok, -, rfl⟩
  · exact ⟨fun _ => ⟨id, id⟩, fun hs ht => absurd ht (by simp [hs]), fun hs ht => absurd ht (by simp [hs])⟩
  · exact ⟨fun hno => absurd hf (hno _), nofun, nofun⟩
  · have hrise := flagsRise_exec hexec
    refine ⟨fun _ => ⟨hrise.keepsMapped, hrise.keepsHalted⟩, fun hs ht => ?_, fun hs ht => ?_⟩
    · obtain ⟨⟨ignored, rfl⟩, hacq⟩ := hrise.mapped hs ht
      exact ⟨ignored, _, hf, hacq⟩
    · obtain ⟨⟨ignored, rfl⟩, hacq⟩ := hrise.halted hs ht
      exact ⟨ignored, _, hf, hacq⟩
  · exact ⟨fun _ => ⟨id, id⟩, fun hs ht => absurd ht (by simp [hs]), fun hs ht => absurd ht (by simp [hs])⟩

end Sys2Proof.Machine
end

section
/-! SUPPORT. The register bus (10_state R22 to R29, 20_memory R37 and R42): what one write does to the contents,
and the contents as what the bus history makes of those a run began with. -/

namespace Sys2Proof.Machine

/-- Settles O49: the fields of the state after reset. -/
theorem resetState : Obligations.ResetState := by
  refine ⟨rfl, rfl, rfl, rfl, rfl, rfl, rfl, fun k => ?_⟩
  fin_cases k <;> rfl

/-- Settles O54: a storage register is one place of a vector, SET and CLR are operations on the latch. -/
theorem registerReadAfterWrite : Obligations.RegisterReadAfterWrite := by
  refine ⟨fun s k v => ⟨?_, rfl, fun k' hne => ?_⟩, fun s v j => ⟨?_, ?_⟩, fun s v b hb => ⟨?_, ?_⟩⟩
  · simp
  · have hval : k.val ≠ k'.val := fun h => hne (Fin.ext h.symm)
    simp [Vector.getElem_set_ne, hval]
  · exact peek_congr rfl j fun _ _ => rfl
  · exact peek_congr rfl j fun _ _ => rfl
  · simp
  · simp [hb]

/-! ### Replaying a history -/

theorem replay_append (es es' : List BusEvent) (c : Vector Word 6 × Word) :
    replay (es ++ es') c = (replay es c).bind (replay es') := by
  induction es generalizing c with
  | nil => rfl
  | cons e es ih =>
    rw [List.cons_append, replay, replay]
    cases replayOne e c with
    | none => rfl
    | some c' => exact ih c'

/-- A history grows by transactions that make the new contents of the old. -/
theorem State.ExplainedFrom.append {s t : State} {initial : Vector Word 6 × Word} {new : List BusEvent}
    (hs : s.ExplainedFrom initial) (hbus : t.bus = s.bus ++ new)
    (hnew : replay new (s.fsel, s.out) = some (t.fsel, t.out)) : t.ExplainedFrom initial := by
  rw [State.ExplainedFrom] at hs ⊢
  rw [hbus, replay_append, hs]
  exact hnew

theorem State.ExplainedFrom.of_eq {s t : State} {initial : Vector Word 6 × Word} (hs : s.ExplainedFrom initial)
    (hfsel : t.fsel = s.fsel) (hout : t.out = s.out) (hbus : t.bus = s.bus) : t.ExplainedFrom initial :=
  hs.append (new := []) (by rw [hbus, List.append_nil]) (by rw [hfsel, hout]; rfl)

/-- Each way an instruction can use the bus is explained by the transactions it enters. -/
theorem State.ExplainedFrom.exec {i : Instr} {s t : State} {initial : Vector Word 6 × Word}
    (hs : s.ExplainedFrom initial) (h : exec i s = .next t) : t.ExplainedFrom initial := by
  cases hi : i.isRecord with
  | true =>
    obtain ⟨e, he⟩ := exec_record hi
    obtain rfl : s.emit e = t := Host.Outcome.next.inj ((he s).symm.trans h)
    exact hs.of_eq rfl rfl rfl
  | false =>
    rcases command_effect hi h with ⟨hfsel, hout, hbus⟩ | ⟨-, k, v, hfsel, hout, hbus⟩ |
      ⟨-, p, -, hfsel, hout, hbus⟩ | ⟨-, p, -, hfsel, hout, hbus⟩
    · exact hs.of_eq hfsel hout hbus
    · exact hs.append hbus (by simp [replay, replayOne, hfsel, hout])
    · exact hs.append hbus (by simp [replay, replayOne, hfsel, hout])
    · exact hs.append hbus (by simp [replay, replayOne, hfsel, hout])

/-- Settles O51: an instruction's transactions explain what it changes, and a reset begins with an empty
history. -/
theorem busHistoryExplainsRegisters : Obligations.BusHistoryExplainsRegisters := by
  intro s t initial hs h
  rcases step_fetch_cases h with ⟨hf, rfl⟩ | ⟨rest, hf, rfl⟩ | ⟨i, rest, ok, hf, hexec⟩ | ⟨rest, ok, hf, rfl⟩
  · exact ⟨fun _ => hs, by simp [hf]⟩
  · exact ⟨fun hno => absurd hf (hno _), fun _ => rfl⟩
  · exact ⟨fun _ => (hs.of_eq (t := s.takingCommand rest ok) rfl rfl rfl).exec hexec, by simp [hf]⟩
  · exact ⟨fun _ => hs.of_eq rfl rfl rfl, by simp [hf]⟩

end Sys2Proof.Machine
end
